-- ==== Sys2Proof/Word.lean ====
section
/-! DEFINITION. The word types of the I2C transaction engine: the byte, the 7-bit address, the 32-bit operation word
(30_encoding.md R108), the 16-bit trigger key (R106) and the 9-bit status snapshot (R105). -/

namespace Sys2Proof

/-- One byte (00_scope.md R7: bytes are 8-bit unsigned). -/
abbrev Byte := BitVec 8

/-- A 7-bit bus address, unshifted (30_encoding.md R100, R102). -/
abbrev Addr7 := BitVec 7

/-- A format A or C operation word (30_encoding.md R108). -/
abbrev OpWord := BitVec 32

/-- A format H trigger key (30_encoding.md R106). -/
abbrev KeyWord := BitVec 16

/-- The status snapshot `S` (30_encoding.md R105). -/
abbrev Snapshot := BitVec 9

end Sys2Proof
end

