-- ==== Sys2Proof/Config.lean ====
section
/-! DEFINITION. What an implementation fixes and the spec leaves OPEN (00_scope.md R6), and the free values: constants
with no body, so that no proof can see what they are. -/

namespace Sys2Proof

/-- Hardware timeout thresholds. Their format is in no source (91_not_in_source.md N6): a list of naturals. -/
abbrev Thresholds := List Nat

/-- Where one register field lies (10_state.md R39): its name, its register's address and access width in bits
(20_memory.md R74), and its bits. -/
structure RegField where
  name : String
  address : Nat
  width : Nat
  hi : Nat
  lo : Nat
  deriving DecidableEq, Repr, Inhabited

/-- The OPEN parameters of 00_scope.md R6 that are plain data. `stdSclFields` is `Config.stdSclFields` below. -/
structure Params where
  /-- The lock's "bounded wait". The model keeps no time (60_exceptions.md R340): its expiry is an input. -/
  lockTimeout : Nat
  /-- The "fixed transfer timeout". Its expiry is an input, as above. -/
  transferTimeout : Nat
  /-- The bound of the bus-free spin, at least 1. -/
  busFreeSpinBound : Nat
  /-- `none` (disabled) or `some thresholds`. -/
  hwTimeout : Option Thresholds
  /-- The bus frequency INIT programs, in Hz. -/
  initialSpeed : Nat
  /-- 90_conflicts.md C4. -/
  concatAdjacentWrites : Bool := false
  /-- Addresses, access widths and bit positions of the register fields; no rule of the block reads them. -/
  regLayout : List RegField
  deriving DecidableEq, Repr, Inhabited

/-- The direction of a message (20_memory.md R71). -/
inductive Direction where
  | write | read
  deriving DecidableEq, Repr, Inhabited

/-- A caller message `{dir, len, buf}` (20_memory.md R71); `buf` is the address of byte 0 of the caller's buffer. -/
structure Message where
  dir : Direction
  len : Nat
  buf : Nat
  deriving DecidableEq, Repr, Inhabited

/-- What the slave-callback oracle answers to one call (44_slave_engine.md R260, R261): a value, of which each
callback uses the part its row names (the status, the byte, both or neither), or `Violation`. -/
inductive CallbackAnswer where
  | value (status : Nat) (byte : Byte)
  | violation
  deriving DecidableEq, Repr, Inhabited

/-- FREE: the parameters of the machine at reset. -/
opaque Config.params : Params

/-- FREE: the parameter `stdSclFields`, from the divider to (SCL-high, SCL-low) on the standard/fast path, each below
4096 (41_baud_lifecycle.md R171, 30_encoding.md R112). -/
opaque Config.stdSclFields : BitVec 9 → BitVec 12 × BitVec 12

/-- FREE: the clock oracle's `enable()` when no answer is queued (40_hw_commands.md R154). -/
opaque Config.clockEnable : Nat → Bool

/-- FREE: the clock oracle's `getRate()` when no answer is queued (40_hw_commands.md R155). -/
opaque Config.clockRate : Nat → Nat

/-- FREE: the callback oracle's answer when none is queued, for a callback set and a draw (44_slave_engine.md R261). -/
opaque Config.callbackAnswer : Nat → Nat → CallbackAnswer

/-- FREE: the byte HW_READ_DATA gives when the controller supplied none (40_hw_commands.md R149), after so many
controller steps: it stays the same until the controller steps (20_memory.md R76). -/
opaque Config.dataDraw : Nat → Byte

/-- FREE: the length, of 0 to 256, that the DMA takes from a command whose operand is above 256
(notes/assumptions/7.md). -/
opaque Config.dmaLength : BitVec 16 → Fin 257

/-- FREE: message `i` of a transfer whose word counts another number of messages than the list beside it has
(notes/assumptions/13.md). -/
opaque Config.messageAt : BitVec 16 → List Message → Nat → Message

end Sys2Proof
end

