-- ==== Sys2Proof/Syntax.lean ====
section
/-! DEFINITION. The instruction set: one constructor per row of spec/opcode_table.json (6 entry points of format A,
27 primitive commands of format C, 20 handler rows of format H), and the enumerations the encodings name
(10_state.md R20, R21). -/

namespace Sys2Proof

/-- The state of either engine's machine (10_state.md R20). -/
inductive Phase where
  | idle | start | write | read | quick
  deriving DecidableEq, Repr, Inhabited

/-- The result kinds (10_state.md R21). -/
inductive ErrorKind where
  | ok | busy | unsupported | invalidConfig | invalidState | noAck | busError | timeout | clockFailed
  deriving DecidableEq, Repr, Inhabited

/-- Which engine a handler row belongs to (30_encoding.md R106, `key[15]`). -/
inductive Role where
  | master | slave
  deriving DecidableEq, Repr, Inhabited

/-- The guard of a handler row (30_encoding.md R107, column "guard"). -/
inductive Guard where
  | always
  /-- `hwTimeout ≠ none` -/
  | hwTimeoutSome
  /-- `txCount = 0 ∧ rxCount = 0` -/
  | countsZero
  /-- `txCount = 0 ∧ rxCount > 0` -/
  | readOnly
  /-- `txCount > 0` -/
  | txPositive
  /-- `rxCount = 0` -/
  | rxZero
  /-- `rxCount > 0` -/
  | rxPositive
  /-- `slaveState ≠ Write` -/
  | slaveNotWrite
  deriving DecidableEq, Repr, Inhabited

/-- The instructions: one constructor per row of spec/opcode_table.json, in the table's order. Operands are the
bit fields the row names; what travels beside the word (30_encoding.md R108) is no operand of the syntax. -/
inductive Instr where
  -- format A: the entry points (30_encoding.md R111)
  | init
  | configure (addr10 : Bool) (cls : BitVec 4)
  | transfer (addr7 : Addr7) (msgCount : BitVec 16)
  | slaveRegister (addr10 : Bool) (addr7 : Addr7) (isNull : Bool)
  | slaveUnregister
  | irq
  -- format C: the primitive commands (30_encoding.md R110)
  | hwStart
  | hwStop
  | hwStallEn
  | hwStallDis
  | hwSendAddr (addrByte : Byte)
  | hwDmaTx (length : BitVec 16)
  | hwDmaRx (length : BitVec 16)
  | hwDmaNackLast
  | hwReset
  | hwClearStatus
  | hwClearDma
  | hwWaitBusFree
  | hwSetTimeout
  | hwSetBaud (fmPlus : Bool) (hold : BitVec 5) (div : BitVec 9)
  | hwSetScl (sclHigh sclLow : BitVec 12)
  | hwSetSlaveAddr (en : Bool) (addr7 : Addr7)
  | hwMatchIrq (en : Bool)
  | hwAckMode (nack : Bool)
  | hwWriteData (byte : Byte)
  | hwReadData
  | hwReadDmaCount
  | hwReadStatus
  | hwAckStatus (mask : Byte)
  | hwIrqEnable (en : Bool)
  | clkEnable
  | clkGetRate
  | hwReadBusy
  -- format H: the handler rows (30_encoding.md R107)
  | mHwto
  | mNack
  | mBer
  | mDrStartQuick
  | mDrStartRead
  | mDrStartWrite
  | mDrWrite
  | mStallRead
  | mStallQuick
  | mDmaWriteStop
  | mDmaWriteRestart
  | mDmaRead
  | sHwto
  | sBer
  | sDmaRx
  | sAmTx
  | sAmRx
  | sDrOverflow
  | sDrFill
  | sStop
  deriving DecidableEq, Repr, Inhabited

/-- Format H rows have a 16-bit trigger key and no operation word (30_encoding.md R106, R115). -/
def Instr.isKeyRow : Instr → Bool
  | .mHwto | .mNack | .mBer | .mDrStartQuick | .mDrStartRead | .mDrStartWrite | .mDrWrite
  | .mStallRead | .mStallQuick | .mDmaWriteStop | .mDmaWriteRestart | .mDmaRead
  | .sHwto | .sBer | .sDmaRx | .sAmTx | .sAmRx | .sDrOverflow | .sDrFill | .sStop => true
  | .init | .configure _ _ | .transfer _ _ | .slaveRegister _ _ _ | .slaveUnregister | .irq
  | .hwStart | .hwStop | .hwStallEn | .hwStallDis | .hwSendAddr _ | .hwDmaTx _ | .hwDmaRx _
  | .hwDmaNackLast | .hwReset | .hwClearStatus | .hwClearDma | .hwWaitBusFree | .hwSetTimeout
  | .hwSetBaud _ _ _ | .hwSetScl _ _ | .hwSetSlaveAddr _ _ | .hwMatchIrq _ | .hwAckMode _
  | .hwWriteData _ | .hwReadData | .hwReadDmaCount | .hwReadStatus | .hwAckStatus _
  | .hwIrqEnable _ | .clkEnable | .clkGetRate | .hwReadBusy => false

end Sys2Proof
end

