-- ==== Sys2Proof/WellFormed.lean ====
section
/-! DEFINITION. The operand ranges the spec gives beyond the width of a field: a DMA length is 1 to 256
(30_encoding.md R110, 40_hw_commands.md R135, R136). Every other field admits every value of its width. -/

namespace Sys2Proof

/-- The DMA length range, `1 ≤ n ≤ 256` (40_hw_commands.md R135, R136). -/
def dmaLengthOk (n : BitVec 16) : Bool := decide (1 ≤ n.toNat) && decide (n.toNat ≤ 256)

/-- Every operand is in the range the spec gives it. -/
def Instr.wellFormed : Instr → Bool
  | .hwDmaTx n => dmaLengthOk n
  | .hwDmaRx n => dmaLengthOk n
  | .init | .configure _ _ | .transfer _ _ | .slaveRegister _ _ _ | .slaveUnregister | .irq
  | .hwStart | .hwStop | .hwStallEn | .hwStallDis | .hwSendAddr _
  | .hwDmaNackLast | .hwReset | .hwClearStatus | .hwClearDma | .hwWaitBusFree | .hwSetTimeout
  | .hwSetBaud _ _ _ | .hwSetScl _ _ | .hwSetSlaveAddr _ _ | .hwMatchIrq _ | .hwAckMode _
  | .hwWriteData _ | .hwReadData | .hwReadDmaCount | .hwReadStatus | .hwAckStatus _
  | .hwIrqEnable _ | .clkEnable | .clkGetRate | .hwReadBusy
  | .mHwto | .mNack | .mBer | .mDrStartQuick | .mDrStartRead | .mDrStartWrite | .mDrWrite
  | .mStallRead | .mStallQuick | .mDmaWriteStop | .mDmaWriteRestart | .mDmaRead
  | .sHwto | .sBer | .sDmaRx | .sAmTx | .sAmRx | .sDrOverflow | .sDrFill | .sStop => true

/-- `i` is well formed. -/
abbrev Instr.WellFormed (i : Instr) : Prop := i.wellFormed = true

end Sys2Proof
end

