-- ==== Sys2Proof/Decode.lean ====
section
/-! DEFINITION. Decoding and encoding (30_encoding.md). The decoder of operation words is total and refuses by name;
the decoder of trigger keys gives the handler rows whose match and mask hold, in priority order; the encoder is written
from the same tables. The text form of R116 stands at the end. -/

namespace Sys2Proof

/-! ### Codes -/

/-- Phase codes (30_encoding.md R103). -/
def Phase.code : Phase → BitVec 3
  | .idle => 0#3
  | .start => 1#3
  | .write => 2#3
  | .read => 3#3
  | .quick => 4#3

/-- The phase of a code; 5 to 7 are reserved (30_encoding.md R103). -/
def Phase.ofCode (c : BitVec 3) : Option Phase :=
  if c = 0#3 then some .idle
  else if c = 1#3 then some .start
  else if c = 2#3 then some .write
  else if c = 3#3 then some .read
  else if c = 4#3 then some .quick
  else none

/-- ErrorKind codes (30_encoding.md R104). -/
def ErrorKind.code : ErrorKind → Nat
  | .ok => 0
  | .busy => 1
  | .unsupported => 2
  | .invalidConfig => 3
  | .invalidState => 4
  | .noAck => 5
  | .busError => 6
  | .timeout => 7
  | .clockFailed => 8

/-- The role bit of a trigger key (30_encoding.md R106). -/
def Role.bit : Role → BitVec 1
  | .master => 0#1
  | .slave => 1#1

/-! ### Operation words (formats A and C) -/

/-- The layout of an operation word: `{opcode, a8, a16}` (30_encoding.md R108). -/
def packWord (opcode a8 : BitVec 8) (a16 : BitVec 16) : OpWord := opcode ++ a8 ++ a16

/-- `w[31:24]`. -/
def OpWord.opcode (w : OpWord) : BitVec 8 := w.extractLsb' 24 8

/-- `w[23:16]`. -/
def OpWord.a8 (w : OpWord) : BitVec 8 := w.extractLsb' 16 8

/-- `w[15:0]`. -/
def OpWord.a16 (w : OpWord) : BitVec 16 := w.extractLsb' 0 16

/-- `w[23:0]`. -/
def OpWord.a24 (w : OpWord) : BitVec 24 := w.extractLsb' 0 24

/-- Why a word spells no operation (30_encoding.md R113). -/
inductive Reject where
  /-- The opcode is in no row of R110 and R111. -/
  | reservedOpcode
  /-- A bit that the row does not name is not 0. -/
  | unusedBits
  deriving DecidableEq, Repr

/-- A row's instruction where the bits it does not name are 0, else the refusal (30_encoding.md R108, R113). -/
def whenZero (unusedZero : Bool) (i : Instr) : Except Reject Instr :=
  if unusedZero then .ok i else .error .unusedBits

/-- A one-bit field as a truth value. -/
def bitOf (b : BitVec 1) : Bool := b == 1#1

/-- The 24-bit argument of HW_SET_BAUD (30_encoding.md R110). -/
def packBaud (fmPlus : Bool) (hold : BitVec 5) (div : BitVec 9) : BitVec 24 :=
  BitVec.ofBool fmPlus ++ hold ++ div ++ 0#9

/-- Decode an operation word: the opcode selects exactly one row (30_encoding.md R110, R111, R113). Total. -/
def decodeWord (w : OpWord) : Except Reject Instr :=
  let a8 := OpWord.a8 w
  let a16 := OpWord.a16 w
  let a24 := OpWord.a24 w
  let plain := whenZero (a24 == 0#24)
  match (OpWord.opcode w).toNat with
  | 0x01 => plain .init
  | 0x02 => whenZero (a8.extractLsb' 5 3 == 0#3 && a16 == 0#16)
      (.configure (bitOf (a8.extractLsb' 4 1)) (a8.extractLsb' 0 4))
  | 0x03 => whenZero (a8.extractLsb' 7 1 == 0#1) (.transfer (a8.extractLsb' 0 7) a16)
  | 0x04 => whenZero (a16.extractLsb' 1 15 == 0#15)
      (.slaveRegister (bitOf (a8.extractLsb' 7 1)) (a8.extractLsb' 0 7) (bitOf (a16.extractLsb' 0 1)))
  | 0x05 => plain .slaveUnregister
  | 0x06 => plain .irq
  | 0x10 => plain .hwStart
  | 0x11 => plain .hwStop
  | 0x12 => plain .hwStallEn
  | 0x13 => plain .hwStallDis
  | 0x14 => whenZero (a16 == 0#16) (.hwSendAddr a8)
  | 0x15 => whenZero (a8 == 0#8) (.hwDmaTx a16)
  | 0x16 => whenZero (a8 == 0#8) (.hwDmaRx a16)
  | 0x17 => plain .hwDmaNackLast
  | 0x18 => plain .hwReset
  | 0x19 => plain .hwClearStatus
  | 0x1A => plain .hwClearDma
  | 0x1B => plain .hwWaitBusFree
  | 0x1C => plain .hwSetTimeout
  | 0x1D => whenZero (a24.extractLsb' 0 9 == 0#9)
      (.hwSetBaud (bitOf (a24.extractLsb' 23 1)) (a24.extractLsb' 18 5) (a24.extractLsb' 9 9))
  | 0x1E => .ok (.hwSetScl (a24.extractLsb' 12 12) (a24.extractLsb' 0 12))
  | 0x1F => whenZero (a16 == 0#16) (.hwSetSlaveAddr (bitOf (a8.extractLsb' 7 1)) (a8.extractLsb' 0 7))
  | 0x20 => whenZero (a8.extractLsb' 1 7 == 0#7 && a16 == 0#16) (.hwMatchIrq (bitOf (a8.extractLsb' 0 1)))
  | 0x21 => whenZero (a8.extractLsb' 1 7 == 0#7 && a16 == 0#16) (.hwAckMode (bitOf (a8.extractLsb' 0 1)))
  | 0x22 => whenZero (a16 == 0#16) (.hwWriteData a8)
  | 0x23 => plain .hwReadData
  | 0x24 => plain .hwReadDmaCount
  | 0x25 => plain .hwReadStatus
  | 0x26 => whenZero (a8 == 0#8 && a16.extractLsb' 8 8 == 0#8) (.hwAckStatus (a16.extractLsb' 0 8))
  | 0x27 => whenZero (a8.extractLsb' 1 7 == 0#7 && a16 == 0#16) (.hwIrqEnable (bitOf (a8.extractLsb' 0 1)))
  | 0x28 => plain .clkEnable
  | 0x29 => plain .clkGetRate
  | 0x2A => plain .hwReadBusy
  | _ => .error .reservedOpcode

/-- A one-bit enable in `a8[0]`, the bits above it 0 (30_encoding.md R110). -/
def packBit (b : Bool) : BitVec 8 := 0#7 ++ BitVec.ofBool b

/-- The operation word of a format A or C instruction (30_encoding.md R110, R111). A format H row has none; its place
holds the reserved word 0, which spells no operation. -/
def encodeWord : Instr → OpWord
  | .init => packWord 0x01#8 0#8 0#16
  | .configure addr10 cls => packWord 0x02#8 (0#3 ++ BitVec.ofBool addr10 ++ cls) 0#16
  | .transfer addr7 msgCount => packWord 0x03#8 (0#1 ++ addr7) msgCount
  | .slaveRegister addr10 addr7 isNull =>
      packWord 0x04#8 (BitVec.ofBool addr10 ++ addr7) (0#15 ++ BitVec.ofBool isNull)
  | .slaveUnregister => packWord 0x05#8 0#8 0#16
  | .irq => packWord 0x06#8 0#8 0#16
  | .hwStart => packWord 0x10#8 0#8 0#16
  | .hwStop => packWord 0x11#8 0#8 0#16
  | .hwStallEn => packWord 0x12#8 0#8 0#16
  | .hwStallDis => packWord 0x13#8 0#8 0#16
  | .hwSendAddr b => packWord 0x14#8 b 0#16
  | .hwDmaTx n => packWord 0x15#8 0#8 n
  | .hwDmaRx n => packWord 0x16#8 0#8 n
  | .hwDmaNackLast => packWord 0x17#8 0#8 0#16
  | .hwReset => packWord 0x18#8 0#8 0#16
  | .hwClearStatus => packWord 0x19#8 0#8 0#16
  | .hwClearDma => packWord 0x1A#8 0#8 0#16
  | .hwWaitBusFree => packWord 0x1B#8 0#8 0#16
  | .hwSetTimeout => packWord 0x1C#8 0#8 0#16
  | .hwSetBaud fmPlus hold div => 0x1D#8 ++ packBaud fmPlus hold div
  | .hwSetScl hi lo => 0x1E#8 ++ (hi ++ lo)
  | .hwSetSlaveAddr en a => packWord 0x1F#8 (BitVec.ofBool en ++ a) 0#16
  | .hwMatchIrq en => packWord 0x20#8 (packBit en) 0#16
  | .hwAckMode nack => packWord 0x21#8 (packBit nack) 0#16
  | .hwWriteData b => packWord 0x22#8 b 0#16
  | .hwReadData => packWord 0x23#8 0#8 0#16
  | .hwReadDmaCount => packWord 0x24#8 0#8 0#16
  | .hwReadStatus => packWord 0x25#8 0#8 0#16
  | .hwAckStatus m => packWord 0x26#8 0#8 (0#8 ++ m)
  | .hwIrqEnable en => packWord 0x27#8 (packBit en) 0#16
  | .clkEnable => packWord 0x28#8 0#8 0#16
  | .clkGetRate => packWord 0x29#8 0#8 0#16
  | .hwReadBusy => packWord 0x2A#8 0#8 0#16
  | .mHwto | .mNack | .mBer | .mDrStartQuick | .mDrStartRead | .mDrStartWrite | .mDrWrite
  | .mStallRead | .mStallQuick | .mDmaWriteStop | .mDmaWriteRestart | .mDmaRead
  | .sHwto | .sBer | .sDmaRx | .sAmTx | .sAmRx | .sDrOverflow | .sDrFill | .sStop => 0#32

/-! ### Trigger keys (format H) -/

/-- The trigger key `{role, state, 000, S}` (30_encoding.md R106). -/
def packKey (role : Role) (state : Phase) (snap : Snapshot) : KeyWord :=
  role.bit ++ state.code ++ 0#3 ++ snap

/-- One row of the handler table (30_encoding.md R107). -/
structure Row where
  instr : Instr
  role : Role
  /-- The event group: 1 to 6 for M1 to M6 and for S1 to S6. -/
  group : Nat
  keyMatch : KeyWord
  keyMask : KeyWord
  guard : Guard
  deriving DecidableEq, Repr

def rowMHwto : Row := ⟨.mHwto, .master, 1, 0x0080#16, 0x8080#16, .hwTimeoutSome⟩
def rowMNack : Row := ⟨.mNack, .master, 2, 0x0004#16, 0x8004#16, .always⟩
def rowMBer : Row := ⟨.mBer, .master, 3, 0x0002#16, 0x8002#16, .always⟩
def rowMDrStartQuick : Row := ⟨.mDrStartQuick, .master, 4, 0x1001#16, 0xF001#16, .countsZero⟩
def rowMDrStartRead : Row := ⟨.mDrStartRead, .master, 4, 0x1001#16, 0xF001#16, .readOnly⟩
def rowMDrStartWrite : Row := ⟨.mDrStartWrite, .master, 4, 0x1001#16, 0xF001#16, .txPositive⟩
def rowMDrWrite : Row := ⟨.mDrWrite, .master, 4, 0x2001#16, 0xF001#16, .always⟩
def rowMStallRead : Row := ⟨.mStallRead, .master, 5, 0x3008#16, 0xF008#16, .always⟩
def rowMStallQuick : Row := ⟨.mStallQuick, .master, 5, 0x4008#16, 0xF008#16, .always⟩
def rowMDmaWriteStop : Row := ⟨.mDmaWriteStop, .master, 6, 0x2040#16, 0xF040#16, .rxZero⟩
def rowMDmaWriteRestart : Row := ⟨.mDmaWriteRestart, .master, 6, 0x2040#16, 0xF040#16, .rxPositive⟩
def rowMDmaRead : Row := ⟨.mDmaRead, .master, 6, 0x3040#16, 0xF040#16, .always⟩
def rowSHwto : Row := ⟨.sHwto, .slave, 1, 0x8080#16, 0x8080#16, .hwTimeoutSome⟩
def rowSBer : Row := ⟨.sBer, .slave, 2, 0x8002#16, 0x8002#16, .always⟩
def rowSDmaRx : Row := ⟨.sDmaRx, .slave, 3, 0xA040#16, 0xF040#16, .always⟩
def rowSAmTx : Row := ⟨.sAmTx, .slave, 4, 0x8110#16, 0x8110#16, .always⟩
def rowSAmRx : Row := ⟨.sAmRx, .slave, 4, 0x8010#16, 0x8110#16, .always⟩
def rowSDrOverflow : Row := ⟨.sDrOverflow, .slave, 5, 0xA001#16, 0xF001#16, .always⟩
def rowSDrFill : Row := ⟨.sDrFill, .slave, 5, 0x8001#16, 0x8001#16, .slaveNotWrite⟩
def rowSStop : Row := ⟨.sStop, .slave, 6, 0x8020#16, 0x8020#16, .always⟩

/-- The rows in priority order, the master's first (30_encoding.md R107). -/
def rowTable : List Row :=
  [rowMHwto, rowMNack, rowMBer, rowMDrStartQuick, rowMDrStartRead, rowMDrStartWrite, rowMDrWrite,
   rowMStallRead, rowMStallQuick, rowMDmaWriteStop, rowMDmaWriteRestart, rowMDmaRead] ++
  [rowSHwto, rowSBer, rowSDmaRx, rowSAmTx, rowSAmRx, rowSDrOverflow, rowSDrFill, rowSStop]

/-- The row's match and mask hold of a key (30_encoding.md R106). -/
def Row.covers (r : Row) (k : KeyWord) : Bool := (k &&& r.keyMask) == r.keyMatch

/-- The reserved field `key[11:9]` is 0 and the state code is no reserved one (30_encoding.md R103, R106). -/
def keyLegal (k : KeyWord) : Bool :=
  k.extractLsb' 9 3 == 0#3 && (Phase.ofCode (k.extractLsb' 12 3)).isSome

/-- The rows a key selects before their guards are asked, in priority order; a key with a non-zero reserved field or a
reserved state code matches no row (30_encoding.md R113). -/
def rowsOfKey (k : KeyWord) : List Row :=
  if keyLegal k then rowTable.filter (fun r => r.covers k) else []

/-- The instructions of those rows. -/
def decodeKey (k : KeyWord) : List Instr := (rowsOfKey k).map Row.instr

/-- The row of a format H instruction. -/
def rowOf? : Instr → Option Row
  | .mHwto => some rowMHwto
  | .mNack => some rowMNack
  | .mBer => some rowMBer
  | .mDrStartQuick => some rowMDrStartQuick
  | .mDrStartRead => some rowMDrStartRead
  | .mDrStartWrite => some rowMDrStartWrite
  | .mDrWrite => some rowMDrWrite
  | .mStallRead => some rowMStallRead
  | .mStallQuick => some rowMStallQuick
  | .mDmaWriteStop => some rowMDmaWriteStop
  | .mDmaWriteRestart => some rowMDmaWriteRestart
  | .mDmaRead => some rowMDmaRead
  | .sHwto => some rowSHwto
  | .sBer => some rowSBer
  | .sDmaRx => some rowSDmaRx
  | .sAmTx => some rowSAmTx
  | .sAmRx => some rowSAmRx
  | .sDrOverflow => some rowSDrOverflow
  | .sDrFill => some rowSDrFill
  | .sStop => some rowSStop
  | .init | .configure _ _ | .transfer _ _ | .slaveRegister _ _ _ | .slaveUnregister | .irq
  | .hwStart | .hwStop | .hwStallEn | .hwStallDis | .hwSendAddr _ | .hwDmaTx _ | .hwDmaRx _
  | .hwDmaNackLast | .hwReset | .hwClearStatus | .hwClearDma | .hwWaitBusFree | .hwSetTimeout
  | .hwSetBaud _ _ _ | .hwSetScl _ _ | .hwSetSlaveAddr _ _ | .hwMatchIrq _ | .hwAckMode _
  | .hwWriteData _ | .hwReadData | .hwReadDmaCount | .hwReadStatus | .hwAckStatus _
  | .hwIrqEnable _ | .clkEnable | .clkGetRate | .hwReadBusy => none

/-! ### Both formats together -/

/-- An encoded instruction: a 32-bit operation word or a 16-bit trigger key, and no other length (30_encoding.md
R115). -/
inductive Code where
  | word (w : OpWord)
  | key (k : KeyWord)
  deriving DecidableEq, Repr

/-- The words of an instruction. A format H row is encoded as its match value (the key with every bit the row does not
look at 0). -/
def encode (i : Instr) : Code :=
  match rowOf? i with
  | some r => .key r.keyMatch
  | none => .word (encodeWord i)

/-- Every instruction a code can spell: one for an operation word, the candidate rows for a key (30_encoding.md
R113). -/
def decode : Code → List Instr
  | .word w => (decodeWord w).toOption.toList
  | .key k => decodeKey k

/-- The host's reading: the instruction of `nbits` bits `w`, bit 0 the least significant. A key that several rows
cover (they differ in their guards alone) gives the first of them. -/
def decodeTableWord (nbits w : Nat) : Option Instr :=
  if nbits = 32 ∧ w < 2 ^ 32 then (decode (.word (BitVec.ofNat 32 w))).head?
  else if nbits = 16 ∧ w < 2 ^ 16 then (decode (.key (BitVec.ofNat 16 w))).head?
  else none

/-- The match and the mask of the row of spec/opcode_table.json (30_encoding.md R107, R110, R111). -/
def tableMatchMask : Instr → Nat × Nat
  | .init => (0x01000000, 0xFFFFFFFF)
  | .configure _ _ => (0x02000000, 0xFFE0FFFF)
  | .transfer _ _ => (0x03000000, 0xFF800000)
  | .slaveRegister _ _ _ => (0x04000000, 0xFF00FFFE)
  | .slaveUnregister => (0x05000000, 0xFFFFFFFF)
  | .irq => (0x06000000, 0xFFFFFFFF)
  | .hwStart => (0x10000000, 0xFFFFFFFF)
  | .hwStop => (0x11000000, 0xFFFFFFFF)
  | .hwStallEn => (0x12000000, 0xFFFFFFFF)
  | .hwStallDis => (0x13000000, 0xFFFFFFFF)
  | .hwSendAddr _ => (0x14000000, 0xFF00FFFF)
  | .hwDmaTx _ => (0x15000000, 0xFFFF0000)
  | .hwDmaRx _ => (0x16000000, 0xFFFF0000)
  | .hwDmaNackLast => (0x17000000, 0xFFFFFFFF)
  | .hwReset => (0x18000000, 0xFFFFFFFF)
  | .hwClearStatus => (0x19000000, 0xFFFFFFFF)
  | .hwClearDma => (0x1A000000, 0xFFFFFFFF)
  | .hwWaitBusFree => (0x1B000000, 0xFFFFFFFF)
  | .hwSetTimeout => (0x1C000000, 0xFFFFFFFF)
  | .hwSetBaud _ _ _ => (0x1D000000, 0xFF0001FF)
  | .hwSetScl _ _ => (0x1E000000, 0xFF000000)
  | .hwSetSlaveAddr _ _ => (0x1F000000, 0xFF00FFFF)
  | .hwMatchIrq _ => (0x20000000, 0xFFFEFFFF)
  | .hwAckMode _ => (0x21000000, 0xFFFEFFFF)
  | .hwWriteData _ => (0x22000000, 0xFF00FFFF)
  | .hwReadData => (0x23000000, 0xFFFFFFFF)
  | .hwReadDmaCount => (0x24000000, 0xFFFFFFFF)
  | .hwReadStatus => (0x25000000, 0xFFFFFFFF)
  | .hwAckStatus _ => (0x26000000, 0xFFFFFF00)
  | .hwIrqEnable _ => (0x27000000, 0xFFFEFFFF)
  | .clkEnable => (0x28000000, 0xFFFFFFFF)
  | .clkGetRate => (0x29000000, 0xFFFFFFFF)
  | .hwReadBusy => (0x2A000000, 0xFFFFFFFF)
  | .mHwto => (0x0080, 0x8080)
  | .mNack => (0x0004, 0x8004)
  | .mBer => (0x0002, 0x8002)
  | .mDrStartQuick => (0x1001, 0xF001)
  | .mDrStartRead => (0x1001, 0xF001)
  | .mDrStartWrite => (0x1001, 0xF001)
  | .mDrWrite => (0x2001, 0xF001)
  | .mStallRead => (0x3008, 0xF008)
  | .mStallQuick => (0x4008, 0xF008)
  | .mDmaWriteStop => (0x2040, 0xF040)
  | .mDmaWriteRestart => (0x2040, 0xF040)
  | .mDmaRead => (0x3040, 0xF040)
  | .sHwto => (0x8080, 0x8080)
  | .sBer => (0x8002, 0x8002)
  | .sDmaRx => (0xA040, 0xF040)
  | .sAmTx => (0x8110, 0x8110)
  | .sAmRx => (0x8010, 0x8110)
  | .sDrOverflow => (0xA001, 0xF001)
  | .sDrFill => (0x8001, 0x8001)
  | .sStop => (0x8020, 0x8020)

/-- The bits of a code as one number. -/
def Code.bits : Code → Nat
  | .word w => w.toNat
  | .key k => k.toNat

/-! ### Text (30_encoding.md R116) -/

/-- One hexadecimal digit in capitals. -/
def hexDigit (n : Nat) : String := String.ofList [(Nat.digitChar n).toUpper]

/-- A byte as two hexadecimal digits after `0x`. -/
def hexByte (b : Byte) : String := "0x" ++ hexDigit (b.toNat / 16) ++ hexDigit (b.toNat % 16)

/-- A number in hexadecimal after `0x`. -/
def hexNat (n : Nat) : String := "0x" ++ (String.ofList (Nat.toDigits 16 n)).toUpper

/-- The name of a speed class in the text form (30_encoding.md R111, R116). -/
def className (c : BitVec 4) : String :=
  if c = 0#4 then "Standard" else if c = 1#4 then "Fast" else if c = 2#4 then "FastPlus"
  else "Other(" ++ toString c.toNat ++ ")"

/-- The mnemonic of an instruction, as spec/opcode_table.json spells it. -/
def Instr.mnemonic : Instr → String
  | .init => "INIT"
  | .configure _ _ => "CONFIGURE"
  | .transfer _ _ => "TRANSFER"
  | .slaveRegister _ _ _ => "SLAVE_REGISTER"
  | .slaveUnregister => "SLAVE_UNREGISTER"
  | .irq => "IRQ"
  | .hwStart => "HW_START"
  | .hwStop => "HW_STOP"
  | .hwStallEn => "HW_STALL_EN"
  | .hwStallDis => "HW_STALL_DIS"
  | .hwSendAddr _ => "HW_SEND_ADDR"
  | .hwDmaTx _ => "HW_DMA_TX"
  | .hwDmaRx _ => "HW_DMA_RX"
  | .hwDmaNackLast => "HW_DMA_NACK_LAST"
  | .hwReset => "HW_RESET"
  | .hwClearStatus => "HW_CLEAR_STATUS"
  | .hwClearDma => "HW_CLEAR_DMA"
  | .hwWaitBusFree => "HW_WAIT_BUS_FREE"
  | .hwSetTimeout => "HW_SET_TIMEOUT"
  | .hwSetBaud _ _ _ => "HW_SET_BAUD"
  | .hwSetScl _ _ => "HW_SET_SCL"
  | .hwSetSlaveAddr _ _ => "HW_SET_SLAVE_ADDR"
  | .hwMatchIrq _ => "HW_MATCH_IRQ"
  | .hwAckMode _ => "HW_ACK_MODE"
  | .hwWriteData _ => "HW_WRITE_DATA"
  | .hwReadData => "HW_READ_DATA"
  | .hwReadDmaCount => "HW_READ_DMA_COUNT"
  | .hwReadStatus => "HW_READ_STATUS"
  | .hwAckStatus _ => "HW_ACK_STATUS"
  | .hwIrqEnable _ => "HW_IRQ_ENABLE"
  | .clkEnable => "CLK_ENABLE"
  | .clkGetRate => "CLK_GET_RATE"
  | .hwReadBusy => "HW_READ_BUSY"
  | .mHwto => "M_HWTO"
  | .mNack => "M_NACK"
  | .mBer => "M_BER"
  | .mDrStartQuick => "M_DR_START_QUICK"
  | .mDrStartRead => "M_DR_START_READ"
  | .mDrStartWrite => "M_DR_START_WRITE"
  | .mDrWrite => "M_DR_WRITE"
  | .mStallRead => "M_STALL_READ"
  | .mStallQuick => "M_STALL_QUICK"
  | .mDmaWriteStop => "M_DMA_WRITE_STOP"
  | .mDmaWriteRestart => "M_DMA_WRITE_RESTART"
  | .mDmaRead => "M_DMA_READ"
  | .sHwto => "S_HWTO"
  | .sBer => "S_BER"
  | .sDmaRx => "S_DMA_RX"
  | .sAmTx => "S_AM_TX"
  | .sAmRx => "S_AM_RX"
  | .sDrOverflow => "S_DR_OVERFLOW"
  | .sDrFill => "S_DR_FILL"
  | .sStop => "S_STOP"

/-- The operand part of the text form. The messages of TRANSFER travel beside the word and are not part of it; the
address of a null SLAVE_REGISTER is not printed. -/
def Instr.operandText : Instr → String
  | .configure addr10 cls => " " ++ className cls ++ (if addr10 then " addr10" else "")
  | .transfer addr7 _ => " " ++ hexByte (0#1 ++ addr7)
  | .slaveRegister addr10 addr7 isNull =>
      if isNull then " null" else " " ++ hexByte (0#1 ++ addr7) ++ (if addr10 then " addr10" else "")
  | .hwSendAddr b => " " ++ hexByte b
  | .hwDmaTx n => " " ++ hexNat n.toNat
  | .hwDmaRx n => " " ++ hexNat n.toNat
  | .hwSetBaud fmPlus hold div => " " ++ hexNat (packBaud fmPlus hold div).toNat
  | .hwSetScl hi lo => " " ++ hexNat (hi ++ lo).toNat
  | .hwSetSlaveAddr en a => " " ++ hexByte (BitVec.ofBool en ++ a)
  | .hwMatchIrq en => " " ++ hexByte (packBit en)
  | .hwAckMode nack => " " ++ hexByte (packBit nack)
  | .hwWriteData b => " " ++ hexByte b
  | .hwAckStatus m => " " ++ hexByte m
  | .hwIrqEnable en => " " ++ hexByte (packBit en)
  | .init | .slaveUnregister | .irq
  | .hwStart | .hwStop | .hwStallEn | .hwStallDis
  | .hwDmaNackLast | .hwReset | .hwClearStatus | .hwClearDma | .hwWaitBusFree | .hwSetTimeout
  | .hwReadData | .hwReadDmaCount | .hwReadStatus | .clkEnable | .clkGetRate | .hwReadBusy
  | .mHwto | .mNack | .mBer | .mDrStartQuick | .mDrStartRead | .mDrStartWrite | .mDrWrite
  | .mStallRead | .mStallQuick | .mDmaWriteStop | .mDmaWriteRestart | .mDmaRead
  | .sHwto | .sBer | .sDmaRx | .sAmTx | .sAmRx | .sDrOverflow | .sDrFill | .sStop => ""

/-- The text form of an instruction (30_encoding.md R116). -/
def Instr.text (i : Instr) : String := i.mnemonic ++ i.operandText

end Sys2Proof
end

