-- ==== Sys2Proof/Machine/State.lean ====
section
/-! DEFINITION. The state of one controller instance with its callers, its register block and its logs, as plain data
(10_state.md), what a step can stop with, and the state after reset (70_reset_and_hazards.md R360). -/

namespace Sys2Proof.Machine

/-! ### What stops a run -/

/-- The model faults of 60_exceptions.md R323. A rule that raises one appends it to `State.faults` and the agent's step
ends there, in a NEXT state; the machine's following `step` answers `.fault` with it, because after a fault no agent has
a step. Safe: the faulted state is the spec's own. -/
inductive Fault where
  /-- Raised by FLUSH, copyOut and a controller DMA transmit step that read a buffer cell nothing has written. Safe. -/
  | unwrittenBufferRead
  /-- Raised by CONFIGURE while the lock is held, the master is not Idle or the slave is mid-stream. Safe. -/
  | configureWhileBusy
  /-- Raised by a callback whose answer is `Violation`. Safe. -/
  | callbackReentry
  /-- Raised by an entry point other than INIT before a successful INIT. Safe. -/
  | notInitialized
  /-- Raised by a second INIT after a successful one. Safe. -/
  | doubleInit
  deriving DecidableEq, Repr, Inhabited

/-- Why a word has no meaning. -/
inductive Refusal where
  /-- Raised by exec's arms of instructions without a meaning. No arm of this model raises it. Safe. -/
  | notModelled (mnemonic : String)
  /-- The word spells no operation, `Refused(ReservedEncoding)` (30_encoding.md R113, 60_exceptions.md R324). Raised by
  the fetch of a word with a reserved opcode or a non-zero unused bit, and by nothing else. Safe. -/
  | reservedEncoding
  deriving DecidableEq, Repr, Inhabited

/-! ### Parts of the instance (10_state.md R20 to R37) -/

/-- `s.lock` (10_state.md R32). -/
inductive Lock where
  | free
  | held (caller : Nat)
  deriving DecidableEq, Repr, Inhabited

/-- `some (buf, len)` of `s.readDest` (10_state.md R30). -/
structure ReadDest where
  buf : Nat
  len : Nat
  deriving DecidableEq, Repr, Inhabited

/-- A slave configuration (10_state.md R29). `cb` is the handle of the registered callback set: the callbacks
themselves are the oracle's (44_slave_engine.md R261). -/
structure SlaveConfig where
  addr7 : Addr7
  addr10 : Bool
  cb : Nat
  deriving DecidableEq, Repr, Inhabited

/-- An entry of `s.slaveErrors` (10_state.md R34). -/
inductive SlaveError where
  | slaveTimeout | slaveBusError
  deriving DecidableEq, Repr, Inhabited

/-! ### The register block (10_state.md R39 to R48) -/

/-- `hw.ackMode` (R40). -/
inductive AckMode where
  | ack | nack
  deriving DecidableEq, Repr, Inhabited

/-- `hw.dmaDir` (R42). -/
inductive DmaDir where
  | none | tx | rx
  deriving DecidableEq, Repr, Inhabited

/-- The latched status flags (R44). -/
structure Flags where
  dr : Bool
  ber : Bool
  nack : Bool
  stall : Bool
  am : Bool
  sstop : Bool
  dmac : Bool
  hwto : Bool
  deriving DecidableEq, Repr, Inhabited

/-- The hardware-interface state `hw` (R39 to R48). -/
structure Hw where
  -- control fields (R40)
  start : Bool
  stop : Bool
  stallEn : Bool
  ackMode : AckMode
  irqEn : Bool
  matchIrqEn : Bool
  -- slave address fields (R41)
  slaveAddr : Option Addr7
  matchEn : Bool
  -- DMA fields (R42)
  dmaDir : DmaDir
  dmaLen : Nat
  dmaCount : Nat
  dmaNackLast : Bool
  dmaActive : Bool
  -- timeout and baud fields (R43)
  toEn : Bool
  toThresholds : Thresholds
  div : BitVec 9
  sclHigh : BitVec 12
  sclLow : BitVec 12
  hold : BitVec 5
  fmPlus : Bool
  -- status flags and direction (R44, R45)
  flags : Flags
  xmit : Bool
  -- data register (R46)
  dataIn : Option Byte
  dataOut : Byte
  -- bus and clock (R47, R48)
  busBusy : Bool
  clkOn : Bool
  deriving DecidableEq, Repr, Inhabited

/-! ### Callers (10_state.md R38) -/

/-- The entry points a caller can be in (R38, `op`). -/
inductive EntryPoint where
  | init | configure | transfer | slaveRegister | slaveUnregister
  deriving DecidableEq, Repr, Inhabited

/-- An entry point's arguments (R38, `args`). -/
inductive CallArgs where
  | none
  | configure (addr10 : Bool) (cls : BitVec 4)
  | transfer (addr7 : Addr7) (msgs : List Message)
  | register (cfg : Option SlaveConfig)
  deriving DecidableEq, Repr, Inhabited

/-- An operation a caller is in, with the sub-step it runs next. -/
structure Frame where
  op : EntryPoint
  pc : Nat
  args : CallArgs
  deriving DecidableEq, Repr, Inhabited

/-- The record `c[a]` of a caller agent (R38). `pc` is the numbered sub-step it runs next, 0 outside an operation.
`outer` is the operation that a second call interrupted, by a caller that holds the lock (42_master_caller.md R190; the
model's own field: notes/assumptions/18.md). -/
structure Caller where
  op : Option EntryPoint
  pc : Nat
  args : CallArgs
  result : Option ErrorKind
  outer : Option Frame := none
  deriving DecidableEq, Repr, Inhabited

/-- The record of a caller that has called nothing yet. -/
def Caller.idle : Caller := { op := Option.none, pc := 0, args := CallArgs.none, result := Option.none }

/-! ### Logs (10_state.md R49) -/

/-- The result of HW_WAIT_BUS_FREE (40_hw_commands.md R141). -/
inductive SpinResult where
  | free (spins : Nat)
  | exhausted
  deriving DecidableEq, Repr, Inhabited

/-- The recorded result of a command that has one (30_encoding.md R110). -/
inductive CmdResult where
  | spins (r : SpinResult)
  | byte (b : Byte)
  | count (n : Nat)
  | snapshot (snap : Snapshot)
  | clock (ok : Bool)
  | rate (hz : Nat)
  | busy (b : Bool)
  deriving DecidableEq, Repr, Inhabited

/-- An entry of `cmdLog`: the word, the thresholds beside HW_SET_TIMEOUT's, the result (R49, 30_encoding.md R108). -/
structure CmdEntry where
  word : OpWord
  thresholds : Option Thresholds
  result : Option CmdResult
  deriving DecidableEq, Repr, Inhabited

/-- A callback with its argument (44_slave_engine.md R260). -/
inductive Callback where
  | writeRequested
  | writeReceived (b : Byte)
  | readRequested
  | readProcessed (slot : Nat)
  | stop
  deriving DecidableEq, Repr, Inhabited

/-- The answer as `cbLog` records it: the part of it the callback's row names (R260), or `Violation` (R261). -/
inductive CbAnswer where
  | done
  | status (st : Nat)
  | reply (st : Nat) (b : Byte)
  | violation
  deriving DecidableEq, Repr, Inhabited

/-- An entry of `cbLog` (R49). -/
structure CbEntry where
  call : Callback
  answer : CbAnswer
  deriving DecidableEq, Repr, Inhabited

/-- An entry of `resultLog` (R49). -/
structure ResultEntry where
  caller : Nat
  op : EntryPoint
  kind : ErrorKind
  deriving DecidableEq, Repr, Inhabited

/-- A status flag by name (R44). -/
inductive Flag where
  | dr | ber | nack | stall | am | sstop | dmac | hwto
  deriving DecidableEq, Repr, Inhabited

/-- An entry of `busLog`: a controller-agent step with its data (R49, 60_exceptions.md R331). -/
inductive BusEvent where
  | raised (f : Flag)
  | startDone
  | stopDone
  | txByte (b : Byte)
  | rxByte (b : Byte)
  | matched (transmit : Bool)
  | dmaDone
  | dataByte (b : Byte)
  | busy (v : Bool)
  deriving DecidableEq, Repr, Inhabited

/-! ### Inputs: the model's own (notes/assumptions/2.md, 5.md) -/

/-- A controller-agent action with the data the outside supplies (60_exceptions.md R331 (a) to (h)). -/
inductive EnvAction where
  /-- (a) raise `DR`, `BER`, `NACK`, `STALL`, `SSTOP` or `HWTO`; the other two flags have actions of their own. -/
  | raise (f : Flag)
  /-- (b) the start condition is on the bus. -/
  | finishStart
  /-- (b) the stop is on the bus. -/
  | finishStop
  /-- (c) the DMA transmits one byte. -/
  | dmaTransmit
  /-- (d) the DMA receives the byte `b`. -/
  | dmaReceive (b : Byte)
  /-- (e) the own address was received, with the direction. -/
  | addressMatch (transmit : Bool)
  /-- (f) the DMA window ends. -/
  | dmaComplete
  /-- (g) a data byte outside the DMA. -/
  | receiveData (b : Byte)
  /-- (h) the bus-busy state. -/
  | setBusy (v : Bool)
  deriving DecidableEq, Repr, Inhabited

/-- What travels beside an operation word (30_encoding.md R108): who issues it, TRANSFER's message list and
SLAVE_REGISTER's callbacks (by handle). -/
structure Issue where
  caller : Nat
  msgs : List Message
  callbacks : Nat
  deriving DecidableEq, Repr, Inhabited

/-- One input of the schedule: which agent steps next, and what the outside hands it. -/
inductive Input where
  /-- An operation word is issued: a caller enters an entry point, the interrupt is dispatched (IRQ), or a command is
  issued on its own. -/
  | word (w : OpWord) (beside : Issue)
  /-- A trigger key is presented to the handler table on its own. -/
  | key (k : KeyWord)
  /-- Caller `a` takes its next sub-step, if that sub-step is enabled. -/
  | advance (a : Nat)
  /-- Caller `a`'s bounded wait expires, if it is in one. -/
  | expire (a : Nat)
  /-- The controller agent takes an action, if its condition holds. -/
  | env (e : EnvAction)
  /-- The application writes a byte of its own memory. -/
  | store (address : Nat) (b : Byte)
  deriving DecidableEq, Repr, Inhabited

/-- The answers the outside has queued for the clock and the callbacks, how many free values have been drawn, and how
many steps the controller agent has taken, which the free byte of HW_READ_DATA depends on (notes/assumptions/5.md). -/
structure Oracle where
  enableQ : List Bool
  rateQ : List Nat
  answerQ : List CallbackAnswer
  drawn : Nat
  turns : Nat
  deriving DecidableEq, Repr, Inhabited

/-- The state of the machine: one instance `s`, its register block `hw`, its callers, the logs, and the model's own
fields. -/
structure State where
  -- the instance (10_state.md R22 to R36)
  masterState : Phase
  slaveState : Phase
  /-- Written cells only, by rising index; an unlisted cell is unwritten (R25). -/
  txBuffer : List Host.Cell
  rxBuffer : List Host.Cell
  txCount : Nat
  rxCount : Nat
  deviceAddress : Byte
  errorCode : ErrorKind
  slaveConfig : Option SlaveConfig
  readDest : Option ReadDest
  sourceClock : Nat
  bitrate : Nat
  lock : Lock
  completion : Bool
  slaveErrors : List SlaveError
  faults : List Fault
  initialized : Bool
  -- the register block (R39 to R48)
  hw : Hw
  -- the callers (R38), by rising agent number, a caller that has called nothing unlisted; and their buffers' bytes
  callers : List (Nat × Caller)
  callerMem : List Host.Cell
  -- the logs (R49), oldest entry first
  cmdLog : List CmdEntry
  cbLog : List CbEntry
  resultLog : List ResultEntry
  busLog : List BusEvent
  -- the entries of cmdLog and resultLog up to the end of a successful INIT, which leaves these two empty (R53;
  -- notes/assumptions/15.md)
  bootCmdLog : List CmdEntry
  bootResultLog : List ResultEntry
  -- the model's own: parameters, inputs, what stands beside the current word, oracle
  cfg : Params
  schedule : List Input
  issue : Issue
  oracle : Oracle
  deriving DecidableEq, Repr

/-- The register block at power-on. The spec leaves every field but the DMA fields unspecified (10_state.md R53,
70_reset_and_hazards.md R360); the model names the values that 95_test_vectors.md Part 3 draws for its programs, and
zero elsewhere (DESIGN CHOICE, unsafe: notes/assumptions/1.md). -/
def Hw.reset : Hw :=
  { start := false, stop := false, stallEn := false, ackMode := .ack, irqEn := false, matchIrqEn := false,
    slaveAddr := none, matchEn := false,
    dmaDir := .none, dmaLen := 0, dmaCount := 0, dmaNackLast := false, dmaActive := false,
    toEn := false, toThresholds := [], div := 0#9, sclHigh := 0#12, sclLow := 0#12, hold := 0#5, fmPlus := false,
    flags := { dr := false, ber := false, nack := false, stall := false, am := false, sstop := false,
               dmac := false, hwto := false },
    xmit := false, dataIn := none, dataOut := 0#8, busBusy := false, clkOn := false }

/-- The machine at power-on: `initialized = false` (70_reset_and_hazards.md R360), buffers unwritten, logs empty, the
parameters free, nothing scheduled; every unspecified field at the value notes/assumptions/1.md names. -/
def State.reset : State :=
  { masterState := .idle, slaveState := .idle, txBuffer := [], rxBuffer := [], txCount := 0, rxCount := 0,
    deviceAddress := 0#8, errorCode := .ok, slaveConfig := none, readDest := none, sourceClock := 0, bitrate := 0,
    lock := .free, completion := false, slaveErrors := [], faults := [], initialized := false,
    hw := Hw.reset, callers := [], callerMem := [],
    cmdLog := [], cbLog := [], resultLog := [], busLog := [], bootCmdLog := [], bootResultLog := [],
    cfg := Config.params, schedule := [], issue := { caller := 0, msgs := [], callbacks := 0 },
    oracle := { enableQ := [], rateQ := [], answerQ := [], drawn := 0, turns := 0 } }

/-- How a part of an interrupt invocation ends: go on with a value, end the engine (a terminal row,
43_master_engine.md R221, 44_slave_engine.md R265), or stop at a fault (60_exceptions.md R323). -/
inductive Flow (α : Type) where
  | go (a : α) (s : State)
  | done (s : State)
  | halt (s : State)
  deriving DecidableEq, Repr

end Sys2Proof.Machine
end

