-- ==== Sys2Proof/Machine/Ops.lean ====
section
/-! DEFINITION. The named operations over memory, callers, logs and the register block: every reader and writer of the
state goes through them. Raising a model fault is ONE operation here (`raiseFault`); the block's only trap, the
interrupt invocation, saves nothing and changes no mode (60_exceptions.md R329, R330), so its entry and return are
HW_READ_STATUS and the acknowledge of Machine/Irq.lean. -/

namespace Sys2Proof.Machine

/-! ### Sparse data by key: a list in rising key order -/

/-- The value listed at key `a`. -/
def Assoc.get {α : Type} : List (Nat × α) → Nat → Option α
  | [], _ => none
  | (k, v) :: m, a => if k = a then some v else Assoc.get m a

/-- List `v` at key `a`, in its place. -/
def Assoc.put {α : Type} : List (Nat × α) → Nat → α → List (Nat × α)
  | [], a, v => [(a, v)]
  | (k, w) :: m, a, v =>
    if a < k then (a, v) :: (k, w) :: m
    else if a = k then (a, v) :: m
    else (k, w) :: Assoc.put m a v

/-- Unlist key `a`. -/
def Assoc.drop {α : Type} : List (Nat × α) → Nat → List (Nat × α)
  | [], _ => []
  | (k, w) :: m, a => if k = a then m else (k, w) :: Assoc.drop m a

/-- The keys rise strictly. -/
abbrev Assoc.Rising {α : Type} (m : List (Nat × α)) : Prop := (m.map Prod.fst).Pairwise (· < ·)

/-! ### Memory (20_memory.md R70, R74) -/

/-- What an unlisted cell of `txBuffer` and `rxBuffer` reads as: no value, it is unwritten (10_state.md R25). -/
def bufferUnlisted : Option Byte := none

/-- What an unlisted byte of the callers' memory reads as: 0 (DESIGN CHOICE, unsafe: notes/assumptions/4.md). -/
def callerUnlisted : Option Byte := some 0#8

/-- The capacity of each buffer, `BUF_CAP` (00_scope.md R6). -/
def bufCap : Nat := 256

/-- The slave's receive window and reply prefill, `SLAVE_WINDOW` (00_scope.md R6). -/
def slaveWindow : Nat := 256

/-- Read one byte; `unlisted` is what an unlisted address reads as. -/
def Memory.read (unlisted : Option Byte) (m : List Host.Cell) (a : Nat) : Option Byte :=
  match Assoc.get m a with
  | some b => some b
  | none => unlisted

/-- Write one byte, keeping the canonical form: a byte equal to what an unlisted address reads as is not listed. -/
def Memory.write (unlisted : Option Byte) (m : List Host.Cell) (a : Nat) (b : Byte) : List Host.Cell :=
  if unlisted = some b then Assoc.drop m a else Assoc.put m a b

/-- The canonical form: addresses strictly rising, no entry equal to what an unlisted address reads as. -/
abbrev Memory.wf (unlisted : Option Byte) (m : List Host.Cell) : Prop :=
  Assoc.Rising m ∧ ∀ c ∈ m, unlisted ≠ some c.2

/-- `MemRead(buf, i, 1)` of an instance buffer; `none` is an unwritten cell (00_scope.md R8, 10_state.md R25). -/
def bufRead (buf : List Host.Cell) (i : Nat) : Option Byte := Memory.read bufferUnlisted buf i

/-- `MemWrite(buf, i, 1, b)` of an instance buffer, whose cells are 0 to 255 (10_state.md R25). -/
def bufWrite (buf : List Host.Cell) (i : Nat) (b : Byte) : List Host.Cell :=
  if i < bufCap then Memory.write bufferUnlisted buf i b else buf

/-- The byte at an address of the callers' memory. -/
def callerByte (s : State) (a : Nat) : Byte := (Memory.read callerUnlisted s.callerMem a).getD 0#8

/-- Write a byte of the callers' memory. -/
def setCallerByte (a : Nat) (b : Byte) (s : State) : State :=
  { s with callerMem := Memory.write callerUnlisted s.callerMem a b }

/-- Bytes `i, i+1, ..., i+n-1` written from a list (20_memory.md R75: a copy is byte by byte in index order). -/
def bufWriteList (buf : List Host.Cell) : Nat → List Byte → List Host.Cell
  | _, [] => buf
  | i, b :: bs => bufWriteList (bufWrite buf i b) (i + 1) bs

/-- The memories of a state are canonical, and the instance buffers list only cells 0 to 255. -/
abbrev State.memoryWf (s : State) : Prop :=
  Memory.wf bufferUnlisted s.txBuffer ∧ (∀ c ∈ s.txBuffer, c.1 < bufCap) ∧
  Memory.wf bufferUnlisted s.rxBuffer ∧ (∀ c ∈ s.rxBuffer, c.1 < bufCap) ∧
  Memory.wf callerUnlisted s.callerMem

/-! ### Callers (10_state.md R38) -/

/-- The record `c[a]`. -/
def getCaller (s : State) (a : Nat) : Caller := (Assoc.get s.callers a).getD Caller.idle

/-- Write the record `c[a]`, keeping the list canonical: a caller that has called nothing is not listed. -/
def setCaller (a : Nat) (c : Caller) (s : State) : State :=
  { s with callers := if c = Caller.idle then Assoc.drop s.callers a else Assoc.put s.callers a c }

/-- The canonical form of the callers' list. -/
abbrev State.callersWf (s : State) : Prop :=
  Assoc.Rising s.callers ∧ ∀ c ∈ s.callers, c.2 ≠ Caller.idle

/-- The operation a caller is in. -/
def callFrame (c : Caller) : Option Frame := c.op.map (fun op => { op := op, pc := c.pc, args := c.args })

/-- Caller `a` enters an entry point; it runs sub-step 1 next (10_state.md R38). The operation it is in, if it calls a
second time, waits (42_master_caller.md R190; notes/assumptions/18.md). -/
def enterCall (a : Nat) (op : EntryPoint) (args : CallArgs) (s : State) : State :=
  setCaller a { op := some op, pc := 1, args := args, result := none, outer := callFrame (getCaller s a) } s

/-- Caller `a` runs sub-step `n` next. -/
def setPc (a : Nat) (n : Nat) (s : State) : State :=
  setCaller a { getCaller s a with pc := n } s

/-- The record after a return: no operation and the result, or the operation that the returning call interrupted. -/
def afterReturn (outer : Option Frame) (kind : ErrorKind) : Caller :=
  match outer with
  | none => { op := none, pc := 0, args := .none, result := some kind }
  | some f => { op := some f.op, pc := f.pc, args := f.args, result := none }

/-- `return kind`: the operation ends and the return is logged (00_scope.md R8, 10_state.md R38, R49). -/
def returnCall (a : Nat) (op : EntryPoint) (kind : ErrorKind) (s : State) : State :=
  let s := setCaller a (afterReturn (getCaller s a).outer kind) s
  { s with resultLog := s.resultLog ++ [{ caller := a, op := op, kind := kind }] }

/-- The operation is a TRANSFER between its arm and its wake: only the wake and the expiry are its caller's steps
(42_master_caller.md R194, 70_reset_and_hazards.md R367). -/
def awaitsSignal (f : Frame) : Bool := decide (f.op = .transfer ∧ f.pc = 5)

/-- The caller can make no call: it is inside an operation without holding the lock, waiting for it (10_state.md R38),
or inside a second call already, or between the arm and the wake of its transfer (42_master_caller.md R194). At any other
sub-step one that holds the lock may call, and waits on itself (R190). -/
def callerBusy (s : State) (a : Nat) : Bool :=
  match callFrame (getCaller s a) with
  | none => false
  | some f => decide (s.lock ≠ .held a) || (getCaller s a).outer.isSome || awaitsSignal f

/-! ### Faults -/

/-- `raise Fault(reason)`: the reason is appended and never cleared (00_scope.md R8, 10_state.md R35). -/
def raiseFault (r : Fault) (s : State) : State := { s with faults := s.faults ++ [r] }

/-! ### The register block and the logs -/

/-- Change the register block. -/
def setHw (f : Hw → Hw) (s : State) : State := { s with hw := f s.hw }

/-- Append a command with its result to `cmdLog` (40_hw_commands.md: "every command also appends its word, and its
result if it has one"). -/
def logCmd (i : Instr) (r : Option CmdResult) (s : State) : State :=
  { s with cmdLog := s.cmdLog ++ [{ word := encodeWord i, thresholds := none, result := r }] }

/-- Append HW_SET_TIMEOUT with the thresholds beside its word (30_encoding.md R108). -/
def logTimeoutCmd (t : Thresholds) (s : State) : State :=
  { s with cmdLog := s.cmdLog ++ [{ word := encodeWord .hwSetTimeout, thresholds := some t, result := none }] }

/-- Append a controller-agent step to `busLog` (60_exceptions.md R331), and count it. -/
def logBus (e : BusEvent) (s : State) : State :=
  { s with busLog := s.busLog ++ [e], oracle := { s.oracle with turns := s.oracle.turns + 1 } }

/-- Append a callback and its answer to `cbLog` (44_slave_engine.md R260). -/
def logCallback (c : Callback) (ans : CbAnswer) (s : State) : State :=
  { s with cbLog := s.cbLog ++ [{ call := c, answer := ans }] }

/-! ### The parts of an interrupt invocation in sequence -/

/-- The state a flow leaves. -/
def Flow.state {α : Type} : Flow α → State
  | .go _ s => s
  | .done s => s
  | .halt s => s

/-- Go on with the next part, unless the engine ended or a fault stopped it. -/
def Flow.bind {α β : Type} (x : Flow α) (f : α → State → Flow β) : Flow β :=
  match x with
  | .go a s => f a s
  | .done s => .done s
  | .halt s => .halt s

/-! ### Oracle answers: the queued ones first, then free values -/

/-- The clock's answer to `enable()` (40_hw_commands.md R154). -/
def clockAnswer (s : State) : Bool :=
  match s.oracle.enableQ with
  | b :: _ => b
  | [] => Config.clockEnable s.oracle.drawn

/-- The answer is used up. -/
def usedClockAnswer (s : State) : State :=
  match s.oracle.enableQ with
  | _ :: q => { s with oracle := { s.oracle with enableQ := q } }
  | [] => { s with oracle := { s.oracle with drawn := s.oracle.drawn + 1 } }

/-- The clock's answer to `getRate()` (40_hw_commands.md R155). -/
def rateAnswer (s : State) : Nat :=
  match s.oracle.rateQ with
  | n :: _ => n
  | [] => Config.clockRate s.oracle.drawn

/-- The answer is used up. -/
def usedRateAnswer (s : State) : State :=
  match s.oracle.rateQ with
  | _ :: q => { s with oracle := { s.oracle with rateQ := q } }
  | [] => { s with oracle := { s.oracle with drawn := s.oracle.drawn + 1 } }

/-- The registered callback set's next answer (44_slave_engine.md R261). -/
def callbackAnswer (s : State) : CallbackAnswer :=
  match s.oracle.answerQ with
  | x :: _ => x
  | [] => Config.callbackAnswer ((s.slaveConfig.map SlaveConfig.cb).getD 0) s.oracle.drawn

/-- The answer is used up. -/
def usedCallbackAnswer (s : State) : State :=
  match s.oracle.answerQ with
  | _ :: q => { s with oracle := { s.oracle with answerQ := q } }
  | [] => { s with oracle := { s.oracle with drawn := s.oracle.drawn + 1 } }

end Sys2Proof.Machine
end

