-- ==== Sys2Proof/Machine/Flags.lean ====
section
/-! DEFINITION. The status flags: the snapshot word, the acknowledge, the clears, the pending interrupt, and what makes
a handler row fire (10_state.md R44, R52; 30_encoding.md R105 to R107). -/

namespace Sys2Proof.Machine

/-- No flag set. -/
def Flags.clear : Flags :=
  { dr := false, ber := false, nack := false, stall := false, am := false, sstop := false, dmac := false,
    hwto := false }

/-- Set one flag. -/
def Flags.set (f : Flag) (x : Flags) : Flags :=
  match f with
  | .dr => { x with dr := true }
  | .ber => { x with ber := true }
  | .nack => { x with nack := true }
  | .stall => { x with stall := true }
  | .am => { x with am := true }
  | .sstop => { x with sstop := true }
  | .dmac => { x with dmac := true }
  | .hwto => { x with hwto := true }

/-- Some flag is set. -/
def Flags.any (x : Flags) : Bool :=
  x.dr || x.ber || x.nack || x.stall || x.am || x.sstop || x.dmac || x.hwto

/-- The status snapshot `S`: bit 0 DR, 1 BER, 2 NACK, 3 STALL, 4 AM, 5 SSTOP, 6 DMAC, 7 HWTO, 8 XMIT (30_encoding.md
R105). -/
def snapshotOf (xmit : Bool) (x : Flags) : Snapshot :=
  BitVec.ofBool xmit ++ BitVec.ofBool x.hwto ++ BitVec.ofBool x.dmac ++ BitVec.ofBool x.sstop ++
  BitVec.ofBool x.am ++ BitVec.ofBool x.stall ++ BitVec.ofBool x.nack ++ BitVec.ofBool x.ber ++ BitVec.ofBool x.dr

/-- The snapshot of a state's register block. -/
def snapshot (s : State) : Snapshot := snapshotOf s.hw.xmit s.hw.flags

/-- `S & FLAGS_ALL` as an acknowledge mask (30_encoding.md R105, 45_dispatcher.md R313). -/
def flagMask (snap : Snapshot) : Byte := snap.extractLsb' 0 8

/-- Write-one-to-clear: clear every flag whose bit is set in the mask (40_hw_commands.md R152). -/
def Flags.ack (m : Byte) (x : Flags) : Flags :=
  { dr := x.dr && !m.getLsbD 0, ber := x.ber && !m.getLsbD 1, nack := x.nack && !m.getLsbD 2,
    stall := x.stall && !m.getLsbD 3, am := x.am && !m.getLsbD 4, sstop := x.sstop && !m.getLsbD 5,
    dmac := x.dmac && !m.getLsbD 6, hwto := x.hwto && !m.getLsbD 7 }

/-- HW_CLEAR_STATUS: every flag but DMAC (40_hw_commands.md R139). -/
def Flags.clearStatus (x : Flags) : Flags := { Flags.clear with dmac := x.dmac }

/-- HW_CLEAR_DMA: DMAC alone (40_hw_commands.md R140). -/
def Flags.clearDma (x : Flags) : Flags := { x with dmac := false }

/-- `irqPending`: the controller interrupt is enabled and a flag is set, for AM with its own enable too (10_state.md
R52, 60_exceptions.md R326). -/
def irqPending (s : State) : Bool :=
  s.hw.irqEn &&
    (s.hw.flags.dr || s.hw.flags.ber || s.hw.flags.nack || s.hw.flags.stall || s.hw.flags.sstop ||
     s.hw.flags.dmac || s.hw.flags.hwto || (s.hw.flags.am && s.hw.matchIrqEn))

/-- `dmaArmedOpen()` (10_state.md R42). -/
def dmaArmedOpen (h : Hw) : Bool := h.dmaActive && decide (h.dmaCount < h.dmaLen)

/-- A slave state that is mid-stream: Write, Read or Quick (44_slave_engine.md R264). -/
def midStream : Phase → Bool
  | .write | .read | .quick => true
  | .idle | .start => false

/-! ### Which handler row fires -/

/-- A row's guard (30_encoding.md R107). -/
def guardHolds (g : Guard) (s : State) : Bool :=
  match g with
  | .always => true
  | .hwTimeoutSome => s.cfg.hwTimeout.isSome
  | .countsZero => decide (s.txCount = 0) && decide (s.rxCount = 0)
  | .readOnly => decide (s.txCount = 0) && decide (0 < s.rxCount)
  | .txPositive => decide (0 < s.txCount)
  | .rxZero => decide (s.rxCount = 0)
  | .rxPositive => decide (0 < s.rxCount)
  | .slaveNotWrite => decide (s.slaveState ≠ .write)

/-- The live state of an engine. -/
def livePhase (r : Role) (s : State) : Phase :=
  match r with
  | .master => s.masterState
  | .slave => s.slaveState

/-- The row fires: its match and mask hold of the key built from the live state and the snapshot, and its guard holds
(30_encoding.md R106, 43_master_engine.md R220). -/
def rowFires (r : Row) (snap : Snapshot) (s : State) : Bool :=
  r.covers (packKey r.role (livePhase r.role s) snap) && guardHolds r.guard s

/-- The dispatcher routes an interrupt to this engine (45_dispatcher.md R311): the master whenever it is not Idle, the
slave only when the master is Idle, a slave is registered and it is not Idle. -/
def routedTo (r : Role) (s : State) : Bool :=
  match r with
  | .master => decide (s.masterState ≠ .idle)
  | .slave => decide (s.masterState = .idle) && s.slaveConfig.isSome && decide (s.slaveState ≠ .idle)

end Sys2Proof.Machine
end

