-- ==== Sys2Proof/Machine/Operands.lean ====
section
/-! DEFINITION. Operand assembly: the address bytes (30_encoding.md R100, R101, R112), the message list's combination
and the Quick rule (42_master_caller.md R199 to R201), and the baud calculator (41_baud_lifecycle.md R170 to R174). -/

namespace Sys2Proof.Machine

/-! ### Address bytes -/

/-- `{addr7, bit}`: the read/write bit in bit 0 (30_encoding.md R100). -/
def addressByte (addr7 : Addr7) (rw : Bool) : Byte := addr7 ++ BitVec.ofBool rw

/-- `addrWrite = deviceAddress & 0xFE` (30_encoding.md R101). -/
def addrWrite (deviceAddress : Byte) : Byte := deviceAddress &&& 0xFE#8

/-- `addrRead = deviceAddress | 0x01` (30_encoding.md R101). -/
def addrRead (deviceAddress : Byte) : Byte := deviceAddress ||| 0x01#8

/-- `addrQuick = deviceAddress` (30_encoding.md R101). -/
def addrQuick (deviceAddress : Byte) : Byte := deviceAddress

/-- `FILL_BYTE` (00_scope.md R6). -/
def fillByte : Byte := 0xFF#8

/-! ### The combine rule and the Quick rule -/

/-- The bytes of a write message, read from the callers' memory (20_memory.md R71). -/
def messageBytes (s : State) (m : Message) : List Byte :=
  (List.range m.len).map (fun i => callerByte s (m.buf + i))

/-- What `combine` has gathered so far. -/
structure Segments where
  tx : List Byte
  rxLen : Nat
  dest : Option ReadDest
  seenRead : Bool
  writes : Nat
  deriving DecidableEq, Repr

/-- The loop of `combine` (42_master_caller.md R199); `none` is `Unsupported`. -/
def combineLoop (s : State) : List Message → Segments → Option Segments
  | [], g => some g
  | m :: ms, g =>
    match m.dir with
    | .read =>
      if g.seenRead then none
      else combineLoop s ms { g with seenRead := true, rxLen := m.len, dest := some { buf := m.buf, len := m.len } }
    | .write =>
      if g.seenRead then none
      else if 0 < g.writes ∧ s.cfg.concatAdjacentWrites = false then none
      else combineLoop s ms { g with writes := g.writes + 1, tx := g.tx ++ messageBytes s m }

/-- `combine(msgs)`: at most one write segment, then at most one read segment, each of at most 256 bytes; `none` is
`Unsupported` (42_master_caller.md R199, R201). -/
def combine (s : State) (msgs : List Message) : Option (List Byte × Nat × Option ReadDest) :=
  match combineLoop s msgs { tx := [], rxLen := 0, dest := none, seenRead := false, writes := 0 } with
  | none => none
  | some g => if bufCap < g.tx.length ∨ bufCap < g.rxLen then none else some (g.tx, g.rxLen, g.dest)

/-- The device address step 2 writes: `{addr7, 0}`, and for a Quick Command (both counts 0, exactly one message) the
direction bit of that message (42_master_caller.md R192, R200). -/
def quickAddress (addr7 : Addr7) (msgs : List Message) (txCount rxCount : Nat) : Byte :=
  match msgs with
  | [m] => addressByte addr7 (decide (txCount = 0 ∧ rxCount = 0 ∧ m.dir = .read))
  | _ => addressByte addr7 false

/-! ### The baud calculator -/

/-- The calculator's output (41_baud_lifecycle.md R170). -/
structure BaudFields where
  div : BitVec 9
  sclHigh : BitVec 12
  sclLow : BitVec 12
  hold : BitVec 5
  fmPlus : Bool
  deriving DecidableEq, Repr

/-- `clamp(v, lo, hi) = min(max(v, lo), hi)` (00_scope.md R7). -/
def clamp (v lo hi : Nat) : Nat := min (max v lo) hi

/-- `holdTier(src)` (41_baud_lifecycle.md R173). -/
def holdTier (src : Nat) : BitVec 5 :=
  if 40000000 ≤ src then 17#5 else if 20000000 ≤ src then 9#5 else 7#5

/-- The divider before clamping, `src / (f * 4)` (41_baud_lifecycle.md R170). -/
def rawDivider (src f : Nat) : Nat := src / (f * 4)

/-- `baud(src, f)`; `none` is `InvalidConfig` (41_baud_lifecycle.md R170 to R174). -/
def baud (src f : Nat) : Option BaudFields :=
  if f = 100000 ∨ f = 400000 then
    let div := BitVec.ofNat 9 (clamp (rawDivider src f) 8 511)
    some { div := div, sclHigh := (Config.stdSclFields div).1, sclLow := (Config.stdSclFields div).2,
           hold := holdTier src, fmPlus := false }
  else if f = 1000000 then
    let div := clamp (rawDivider src f) 5 255
    some { div := BitVec.ofNat 9 div, sclHigh := BitVec.ofNat 12 (div - 3), sclLow := BitVec.ofNat 12 (div - 1),
           hold := holdTier src, fmPlus := true }
  else none

/-- The frequency of a speed class; `none` is any other class (41_baud_lifecycle.md R177, 30_encoding.md R111). -/
def classFrequency (cls : BitVec 4) : Option Nat :=
  if cls = 0#4 then some 100000
  else if cls = 1#4 then some 400000
  else if cls = 2#4 then some 1000000
  else none

end Sys2Proof.Machine
end

