-- ==== Sys2Proof/Machine/Hw.lean ====
section
/-! DEFINITION. The primitive commands as operations on the state (40_hw_commands.md R130 to R156): each writes the
register fields its rule names and appends its word, and its result, to `cmdLog`. The entry points and the handler rows
are built from them; the pseudo-operation ABORT stands at the end (30_encoding.md R117). -/

namespace Sys2Proof.Machine

/-- HW_START (R130). -/
def hwStart (s : State) : State := logCmd .hwStart none (setHw (fun h => { h with start := true }) s)

/-- HW_STOP (R131). -/
def hwStop (s : State) : State := logCmd .hwStop none (setHw (fun h => { h with stop := true }) s)

/-- HW_STALL_EN (R132). -/
def hwStallEn (s : State) : State := logCmd .hwStallEn none (setHw (fun h => { h with stallEn := true }) s)

/-- HW_STALL_DIS (R133). -/
def hwStallDis (s : State) : State := logCmd .hwStallDis none (setHw (fun h => { h with stallEn := false }) s)

/-- HW_SEND_ADDR (R134). -/
def hwSendAddr (b : Byte) (s : State) : State :=
  logCmd (.hwSendAddr b) none (setHw (fun h => { h with dataOut := b }) s)

/-- Arm the DMA in a direction from count 0 (R135, R136). -/
def armDma (dir : DmaDir) (n : Nat) (h : Hw) : Hw :=
  { h with dmaDir := dir, dmaLen := n, dmaCount := 0, dmaActive := true }

/-- The length the DMA takes from an operand: the operand itself up to 256; above, which R135 and R136 give no meaning
and `hw.dmaLen` cannot hold (10_state.md R42), a free length of 0 to 256 (DESIGN CHOICE: notes/assumptions/7.md). -/
def dmaLength (n : BitVec 16) : Nat := if n.toNat ≤ bufCap then n.toNat else (Config.dmaLength n).val

/-- HW_DMA_TX (R135). -/
def hwDmaTx (n : BitVec 16) (s : State) : State := logCmd (.hwDmaTx n) none (setHw (armDma .tx (dmaLength n)) s)

/-- HW_DMA_RX (R136). -/
def hwDmaRx (n : BitVec 16) (s : State) : State := logCmd (.hwDmaRx n) none (setHw (armDma .rx (dmaLength n)) s)

/-- HW_DMA_NACK_LAST (R137). -/
def hwDmaNackLast (s : State) : State :=
  logCmd .hwDmaNackLast none (setHw (fun h => { h with dmaNackLast := true }) s)

/-- The DMA disarmed: `None`, 0, 0, false, false (R138, 10_state.md R53). -/
def disarmDma (h : Hw) : Hw :=
  { h with dmaDir := .none, dmaLen := 0, dmaCount := 0, dmaNackLast := false, dmaActive := false }

/-- What HW_RESET writes; the fields not named are kept (R138). -/
def resetHw (h : Hw) : Hw :=
  { disarmDma h with
    start := false, stop := false, stallEn := false, ackMode := .ack, flags := Flags.clear, busBusy := false,
    dataIn := none }

/-- HW_RESET (R138). -/
def hwReset (s : State) : State := logCmd .hwReset none (setHw resetHw s)

/-- HW_CLEAR_STATUS (R139). -/
def hwClearStatus (s : State) : State :=
  logCmd .hwClearStatus none (setHw (fun h => { h with flags := h.flags.clearStatus }) s)

/-- HW_CLEAR_DMA (R140). -/
def hwClearDma (s : State) : State :=
  logCmd .hwClearDma none (setHw (fun h => { h with flags := h.flags.clearDma }) s)

/-- The spin of HW_WAIT_BUS_FREE: how many tests found the bus busy, of at most `bound` (R141). The invocation is atomic,
so every test sees the same `busy`. -/
def spinCount (busy : Bool) : Nat → Nat
  | 0 => 0
  | bound + 1 => if busy then spinCount busy bound + 1 else 0

/-- The result of HW_WAIT_BUS_FREE (R141). -/
def spinResult (bound : Nat) (busy : Bool) : SpinResult :=
  if busy then .exhausted else .free (spinCount busy bound)

/-- HW_WAIT_BUS_FREE (R141): the result is recorded, and nothing else changes. -/
def hwWaitBusFree (s : State) : State :=
  logCmd .hwWaitBusFree (some (.spins (spinResult s.cfg.busFreeSpinBound s.hw.busBusy))) s

/-- HW_READ_STATUS (R151). -/
def hwReadStatus (s : State) : State := logCmd .hwReadStatus (some (.snapshot (snapshot s))) s

/-- HW_ACK_STATUS (R152). -/
def hwAckStatus (m : Byte) (s : State) : State :=
  logCmd (.hwAckStatus m) none (setHw (fun h => { h with flags := h.flags.ack m }) s)

/-- HW_SET_TIMEOUT with thresholds `t` (R142). -/
def hwSetTimeout (t : Thresholds) (s : State) : State :=
  logTimeoutCmd t (setHw (fun h => { h with toThresholds := t, toEn := true }) s)

/-- HW_SET_BAUD (R143): `div`, `hold` and `fmPlus`; the SCL counts are HW_SET_SCL's (DEDUCED against 10_state.md R43's
"written only by HW_SET_BAUD": notes/assumptions/16.md). -/
def hwSetBaud (fmPlus : Bool) (hold : BitVec 5) (div : BitVec 9) (s : State) : State :=
  logCmd (.hwSetBaud fmPlus hold div) none (setHw (fun h => { h with div := div, hold := hold, fmPlus := fmPlus }) s)

/-- HW_SET_SCL (R144): it writes the SCL counts, which 10_state.md R43 gives to HW_SET_BAUD (DEDUCED:
notes/assumptions/16.md). -/
def hwSetScl (hi lo : BitVec 12) (s : State) : State :=
  logCmd (.hwSetScl hi lo) none (setHw (fun h => { h with sclHigh := hi, sclLow := lo }) s)

/-- HW_SET_SLAVE_ADDR (R145). -/
def hwSetSlaveAddr (en : Bool) (a : Addr7) (s : State) : State :=
  logCmd (.hwSetSlaveAddr en a) none
    (setHw (fun h => { h with matchEn := en, slaveAddr := if en then some a else none }) s)

/-- HW_MATCH_IRQ (R146). -/
def hwMatchIrq (en : Bool) (s : State) : State :=
  logCmd (.hwMatchIrq en) none (setHw (fun h => { h with matchIrqEn := en }) s)

/-- HW_ACK_MODE (R147). -/
def hwAckMode (nack : Bool) (s : State) : State :=
  logCmd (.hwAckMode nack) none (setHw (fun h => { h with ackMode := if nack then .nack else .ack }) s)

/-- HW_IRQ_ENABLE (R153). -/
def hwIrqEnable (en : Bool) (s : State) : State :=
  logCmd (.hwIrqEnable en) none (setHw (fun h => { h with irqEn := en }) s)

/-- HW_WRITE_DATA (R148). -/
def hwWriteData (b : Byte) (s : State) : State :=
  logCmd (.hwWriteData b) none (setHw (fun h => { h with dataOut := b }) s)

/-- The byte HW_READ_DATA gives: the one supplied, else a free value (R149), which is the same byte until the controller
steps (20_memory.md R76; notes/assumptions/5.md). -/
def dataByte (s : State) : Byte := s.hw.dataIn.getD (Config.dataDraw s.oracle.turns)

/-- HW_READ_DATA (R149): no side effect. -/
def hwReadData (s : State) : State := logCmd .hwReadData (some (.byte (dataByte s))) s

/-- HW_READ_DMA_COUNT (R150). -/
def hwReadDmaCount (s : State) : State := logCmd .hwReadDmaCount (some (.count s.hw.dmaCount)) s

/-- HW_READ_BUSY (R156). -/
def hwReadBusy (s : State) : State := logCmd .hwReadBusy (some (.busy s.hw.busBusy)) s

/-- CLK_ENABLE (R154). -/
def clkEnable (s : State) : State :=
  logCmd .clkEnable (some (.clock (clockAnswer s)))
    (usedClockAnswer (if clockAnswer s then setHw (fun h => { h with clkOn := true }) s else s))

/-- CLK_GET_RATE (R155). -/
def clkGetRate (s : State) : State := logCmd .clkGetRate (some (.rate (rateAnswer s))) (usedRateAnswer s)

/-- The pseudo-operation ABORT (30_encoding.md R117, 43_master_engine.md R222). -/
def abort (s : State) : State := hwClearDma (hwWaitBusFree (hwClearStatus (hwStop s)))

/-- The pseudo-operation FILL (30_encoding.md R117). -/
def fill (s : State) : State := hwWriteData fillByte s

end Sys2Proof.Machine
end

