-- ==== Sys2Proof/Machine/Commands.lean ====
section
/-! DEFINITION. The meanings of the format C instructions (40_hw_commands.md): each command issued on its own. None of
them raises an ErrorKind. -/

namespace Sys2Proof.Machine

/-- HW_START (R130). -/
def execHwStart (s : State) : Host.Outcome State Fault Refusal := .next (hwStart s)

/-- HW_STOP (R131). -/
def execHwStop (s : State) : Host.Outcome State Fault Refusal := .next (hwStop s)

/-- HW_STALL_EN (R132). -/
def execHwStallEn (s : State) : Host.Outcome State Fault Refusal := .next (hwStallEn s)

/-- HW_STALL_DIS (R133). -/
def execHwStallDis (s : State) : Host.Outcome State Fault Refusal := .next (hwStallDis s)

/-- HW_SEND_ADDR (R134). -/
def execHwSendAddr (b : Byte) (s : State) : Host.Outcome State Fault Refusal := .next (hwSendAddr b s)

/-- HW_DMA_TX (R135). A length of 0, which the block never issues, has the effect the pseudocode gives it; above 256 the
armed length is a free value (DESIGN CHOICE: notes/assumptions/7.md). -/
def execHwDmaTx (n : BitVec 16) (s : State) : Host.Outcome State Fault Refusal := .next (hwDmaTx n s)

/-- HW_DMA_RX (R136); lengths as in HW_DMA_TX. -/
def execHwDmaRx (n : BitVec 16) (s : State) : Host.Outcome State Fault Refusal := .next (hwDmaRx n s)

/-- HW_DMA_NACK_LAST (R137). -/
def execHwDmaNackLast (s : State) : Host.Outcome State Fault Refusal := .next (hwDmaNackLast s)

/-- HW_RESET (R138). -/
def execHwReset (s : State) : Host.Outcome State Fault Refusal := .next (hwReset s)

/-- HW_CLEAR_STATUS (R139). -/
def execHwClearStatus (s : State) : Host.Outcome State Fault Refusal := .next (hwClearStatus s)

/-- HW_CLEAR_DMA (R140). -/
def execHwClearDma (s : State) : Host.Outcome State Fault Refusal := .next (hwClearDma s)

/-- HW_WAIT_BUS_FREE (R141). -/
def execHwWaitBusFree (s : State) : Host.Outcome State Fault Refusal := .next (hwWaitBusFree s)

/-- HW_SET_TIMEOUT (R142): its operand is the parameter's thresholds. With `hwTimeout = none` "no command enables the
timeout", so the command then changes nothing (notes/assumptions/8.md). -/
def execHwSetTimeout (s : State) : Host.Outcome State Fault Refusal :=
  match s.cfg.hwTimeout with
  | some t => .next (hwSetTimeout t s)
  | none => .next s

/-- HW_SET_BAUD (R143). -/
def execHwSetBaud (fmPlus : Bool) (hold : BitVec 5) (div : BitVec 9) (s : State) :
    Host.Outcome State Fault Refusal := .next (hwSetBaud fmPlus hold div s)

/-- HW_SET_SCL (R144). -/
def execHwSetScl (hi lo : BitVec 12) (s : State) : Host.Outcome State Fault Refusal := .next (hwSetScl hi lo s)

/-- HW_SET_SLAVE_ADDR (R145). -/
def execHwSetSlaveAddr (en : Bool) (a : Addr7) (s : State) : Host.Outcome State Fault Refusal :=
  .next (hwSetSlaveAddr en a s)

/-- HW_MATCH_IRQ (R146). -/
def execHwMatchIrq (en : Bool) (s : State) : Host.Outcome State Fault Refusal := .next (hwMatchIrq en s)

/-- HW_ACK_MODE (R147). -/
def execHwAckMode (nack : Bool) (s : State) : Host.Outcome State Fault Refusal := .next (hwAckMode nack s)

/-- HW_WRITE_DATA (R148). -/
def execHwWriteData (b : Byte) (s : State) : Host.Outcome State Fault Refusal := .next (hwWriteData b s)

/-- HW_READ_DATA (R149). -/
def execHwReadData (s : State) : Host.Outcome State Fault Refusal := .next (hwReadData s)

/-- HW_READ_DMA_COUNT (R150). -/
def execHwReadDmaCount (s : State) : Host.Outcome State Fault Refusal := .next (hwReadDmaCount s)

/-- HW_READ_STATUS (R151). -/
def execHwReadStatus (s : State) : Host.Outcome State Fault Refusal := .next (hwReadStatus s)

/-- HW_ACK_STATUS (R152). -/
def execHwAckStatus (m : Byte) (s : State) : Host.Outcome State Fault Refusal := .next (hwAckStatus m s)

/-- HW_IRQ_ENABLE (R153). -/
def execHwIrqEnable (en : Bool) (s : State) : Host.Outcome State Fault Refusal := .next (hwIrqEnable en s)

/-- CLK_ENABLE (R154). -/
def execClkEnable (s : State) : Host.Outcome State Fault Refusal := .next (clkEnable s)

/-- CLK_GET_RATE (R155). -/
def execClkGetRate (s : State) : Host.Outcome State Fault Refusal := .next (clkGetRate s)

/-- HW_READ_BUSY (R156). -/
def execHwReadBusy (s : State) : Host.Outcome State Fault Refusal := .next (hwReadBusy s)

end Sys2Proof.Machine
end

