-- ==== Sys2Proof/Machine/Sync.lean ====
section
/-! DEFINITION. The transaction synchroniser: the lock, the completion and the notify (42_master_caller.md R190, R191,
R194, R197). -/

namespace Sys2Proof.Machine

/-- `acquire(a)` as an atomic test-and-set (R190): with the lock free the caller takes it and goes on to sub-step 2;
otherwise it goes on waiting at sub-step 1, which leaves the state as it is. A caller that holds the lock itself waits
on itself: "lock is not reentrant". -/
def acquire (a : Nat) (s : State) : State :=
  match s.lock with
  | .free => setPc a 2 { s with lock := .held a }
  | .held _ => s

/-- `release(a)` (R191). -/
def release (s : State) : State := { s with lock := .free }

/-- `notify(e)`: the error code before the signal (R197). Signalling twice leaves the completion signalled. -/
def notify (e : ErrorKind) (s : State) : State := { s with errorCode := e, completion := true }

/-- The engine's terminal hand-off: the master state is Idle before the caller is notified (R197, 43_master_engine.md
R221). -/
def endMaster (e : ErrorKind) (s : State) : State := notify e { s with masterState := .idle }

end Sys2Proof.Machine
end

