-- ==== Sys2Proof/Machine/Master.lean ====
section
/-! DEFINITION. The master transaction engine, interrupt side: the body of each handler row and the meaning of each row
as an instruction (43_master_engine.md R220 to R237). A row's body ends the engine (`Flow.done`) exactly when the row is
terminal (R221). -/

namespace Sys2Proof.Machine

/-- A handler row run as an instruction of its own: the group it belongs to is evaluated with a snapshot that carries
the row's own trigger bits. It fires when the dispatcher routes to its engine and its key and guard hold of the live
state; a row that does not fire changes nothing (30_encoding.md R106, R113; 45_dispatcher.md R311; notes/assumptions/9.md). -/
def execRow (r : Row) (body : State → Flow Unit) (s : State) : Host.Outcome State Fault Refusal :=
  if routedTo r.role s && rowFires r (r.keyMatch.extractLsb' 0 9) s then .next (body s).state else .next s

/-- M_HWTO (R225). -/
def mHwto (s : State) : Flow Unit := .done (endMaster .timeout (hwReset s))

/-- M_NACK (R226). -/
def mNack (s : State) : Flow Unit := .done (endMaster .noAck (abort s))

/-- M_BER (R227). -/
def mBer (s : State) : Flow Unit := .done (endMaster .busError (hwReset (abort s)))

/-- M_DR_START_QUICK (R228). -/
def mDrStartQuick (s : State) : Flow Unit :=
  .go () { hwSendAddr (addrQuick s.deviceAddress) (hwStallEn s) with masterState := .quick }

/-- M_DR_START_READ (R229). -/
def mDrStartRead (s : State) : Flow Unit :=
  .go () { hwSendAddr (addrRead s.deviceAddress) (hwStallEn s) with masterState := .read }

/-- M_DR_START_WRITE (R230). -/
def mDrStartWrite (s : State) : Flow Unit :=
  .go () { hwSendAddr (addrWrite s.deviceAddress) s with masterState := .write }

/-- M_DR_WRITE (R231). -/
def mDrWrite (s : State) : Flow Unit := .go () (hwDmaTx (BitVec.ofNat 16 s.txCount) s)

/-- M_STALL_READ (R232). -/
def mStallRead (s : State) : Flow Unit :=
  .go () (hwStallDis (hwDmaRx (BitVec.ofNat 16 s.rxCount) (hwDmaNackLast s)))

/-- M_STALL_QUICK (R233). -/
def mStallQuick (s : State) : Flow Unit := .done (endMaster .ok (hwStop s))

/-- M_DMA_WRITE_STOP (R234). -/
def mDmaWriteStop (s : State) : Flow Unit := .done (endMaster .ok (hwStop s))

/-- M_DMA_WRITE_RESTART (R235). -/
def mDmaWriteRestart (s : State) : Flow Unit :=
  .go () (hwSendAddr (addrRead s.deviceAddress) (hwStart (hwStallEn { s with masterState := .read })))

/-- M_DMA_READ (R236): the received count is the DMA's. -/
def mDmaRead (s : State) : Flow Unit :=
  .done (notify .ok
    { hwReadDmaCount { hwStop s with masterState := .idle } with rxCount := s.hw.dmaCount })

/-- The event groups M1 to M6 with their rows (R220, 30_encoding.md R107). -/
def masterGroups : List (List (Row × (State → Flow Unit))) :=
  [[(rowMHwto, mHwto)],
   [(rowMNack, mNack)],
   [(rowMBer, mBer)],
   [(rowMDrStartQuick, mDrStartQuick), (rowMDrStartRead, mDrStartRead), (rowMDrStartWrite, mDrStartWrite),
    (rowMDrWrite, mDrWrite)],
   [(rowMStallRead, mStallRead), (rowMStallQuick, mStallQuick)],
   [(rowMDmaWriteStop, mDmaWriteStop), (rowMDmaWriteRestart, mDmaWriteRestart), (rowMDmaRead, mDmaRead)]]

/-- M_HWTO as an instruction (R225). -/
def execMHwto (s : State) : Host.Outcome State Fault Refusal := execRow rowMHwto mHwto s

/-- M_NACK as an instruction (R226). -/
def execMNack (s : State) : Host.Outcome State Fault Refusal := execRow rowMNack mNack s

/-- M_BER as an instruction (R227). -/
def execMBer (s : State) : Host.Outcome State Fault Refusal := execRow rowMBer mBer s

/-- M_DR_START_QUICK as an instruction (R228). -/
def execMDrStartQuick (s : State) : Host.Outcome State Fault Refusal := execRow rowMDrStartQuick mDrStartQuick s

/-- M_DR_START_READ as an instruction (R229). -/
def execMDrStartRead (s : State) : Host.Outcome State Fault Refusal := execRow rowMDrStartRead mDrStartRead s

/-- M_DR_START_WRITE as an instruction (R230). -/
def execMDrStartWrite (s : State) : Host.Outcome State Fault Refusal := execRow rowMDrStartWrite mDrStartWrite s

/-- M_DR_WRITE as an instruction (R231). -/
def execMDrWrite (s : State) : Host.Outcome State Fault Refusal := execRow rowMDrWrite mDrWrite s

/-- M_STALL_READ as an instruction (R232). -/
def execMStallRead (s : State) : Host.Outcome State Fault Refusal := execRow rowMStallRead mStallRead s

/-- M_STALL_QUICK as an instruction (R233). -/
def execMStallQuick (s : State) : Host.Outcome State Fault Refusal := execRow rowMStallQuick mStallQuick s

/-- M_DMA_WRITE_STOP as an instruction (R234). -/
def execMDmaWriteStop (s : State) : Host.Outcome State Fault Refusal := execRow rowMDmaWriteStop mDmaWriteStop s

/-- M_DMA_WRITE_RESTART as an instruction (R235). -/
def execMDmaWriteRestart (s : State) : Host.Outcome State Fault Refusal :=
  execRow rowMDmaWriteRestart mDmaWriteRestart s

/-- M_DMA_READ as an instruction (R236). -/
def execMDmaRead (s : State) : Host.Outcome State Fault Refusal := execRow rowMDmaRead mDmaRead s

end Sys2Proof.Machine
end

