-- ==== Sys2Proof/Machine/Slave.lean ====
section
/-! DEFINITION. The slave transaction engine, interrupt side: the callbacks, FLUSH, the reply prefill, the body of each
handler row and the meaning of each row as an instruction (44_slave_engine.md R260 to R281). -/

namespace Sys2Proof.Machine

/-! ### Callbacks -/

/-- The part of an answer that a callback's row names (R260). -/
def answerShape (c : Callback) (st : Nat) (b : Byte) : CbAnswer :=
  match c with
  | .writeRequested => .done
  | .writeReceived _ => .status st
  | .readRequested => .reply st b
  | .readProcessed _ => .reply st b
  | .stop => .done

/-- `Call(cb, args)` (00_scope.md R8, 44_slave_engine.md R260, R261): the call is logged with its answer; `Violation`
raises CallbackReentry and the invocation stops. -/
def callSlave (c : Callback) (s : State) : Flow (Nat × Byte) :=
  match callbackAnswer s with
  | .value st b => .go (st, b) (logCallback c (answerShape c st b) (usedCallbackAnswer s))
  | .violation => .halt (raiseFault .callbackReentry (logCallback c .violation (usedCallbackAnswer s)))

/-! ### FLUSH and the reply prefill -/

/-- Deliver `n` received bytes from index `i` through `writeReceived`; it stops at an unwritten cell (R268,
60_exceptions.md R323). -/
def flushLoop : Nat → Nat → State → Flow Unit
  | 0, _, s => .go () s
  | n + 1, i, s =>
    match bufRead s.rxBuffer i with
    | none => .halt (raiseFault .unwrittenBufferRead s)
    | some b => (callSlave (.writeReceived b) s).bind (fun _ s => flushLoop n (i + 1) s)

/-- FLUSH (R268): as many bytes as the DMA counted. -/
def flush (s : State) : Flow Unit := flushLoop s.hw.dmaCount 0 (hwReadDmaCount s)

/-- The loop of `prefill` from slot `k`, at most `fuel` more slots (R275). -/
def prefillLoop : Nat → Nat → State → Flow Nat
  | 0, k, s => .go k s
  | fuel + 1, k, s =>
    (callSlave (.readProcessed k) s).bind (fun r s =>
      if r.1 ≠ 0 then .go k s
      else prefillLoop fuel (k + 1) { s with txBuffer := bufWrite s.txBuffer k r.2 })

/-- `prefill()`: the number of reply bytes, at most 256 (R275). -/
def prefill (s : State) : Flow Nat :=
  (callSlave .readRequested s).bind (fun r s =>
    if r.1 ≠ 0 then .go 0 s
    else prefillLoop (slaveWindow - 1) 1 { s with txBuffer := bufWrite s.txBuffer 0 r.2 })

/-- `txDecision(k)` (R276). -/
def txDecision (k : Nat) (s : State) : State :=
  if k = 0 then { s with txCount := 0, slaveState := .quick }
  else { hwDmaTx (BitVec.ofNat 16 k) { s with txCount := k } with slaveState := .read }

/-! ### The rows -/

/-- FLUSH when receiving, else nothing (R273, R279). -/
def flushIfWrite (s : State) : Flow Unit := if s.slaveState = .write then flush s else .go () s

/-- "report error locally" (R266). -/
def reportSlave (e : SlaveError) (s : State) : State := { s with slaveErrors := s.slaveErrors ++ [e] }

/-- S_HWTO (R270). -/
def sHwto (s : State) : Flow Unit := .done (reportSlave .slaveTimeout { hwReset s with slaveState := .start })

/-- S_BER (R271): not reported in Quick. -/
def sBer (s : State) : Flow Unit :=
  let s := if s.slaveState = .quick then s else reportSlave .slaveBusError s
  .done (hwReset { s with slaveState := .start })

/-- S_DMA_RX (R272): a full window asserts NACK toward the master. -/
def sDmaRx (s : State) : Flow Unit :=
  if s.hw.dmaCount = slaveWindow then .go () (hwAckMode true (hwReadDmaCount s)) else .go () (hwReadDmaCount s)

/-- S_AM_TX (R273). -/
def sAmTx (s : State) : Flow Unit :=
  (flushIfWrite s).bind (fun _ s => (prefill s).bind (fun k s => .go () (txDecision k s)))

/-- S_AM_RX (R274). -/
def sAmRx (s : State) : Flow Unit :=
  (callSlave .writeRequested
    { hwDmaRx (BitVec.ofNat 16 slaveWindow) (hwAckMode false s) with slaveState := .write }).bind
    (fun _ s => .go () s)

/-- S_DR_OVERFLOW (R277). -/
def sDrOverflow (s : State) : Flow Unit :=
  (flush s).bind (fun _ s =>
    (callSlave (.writeReceived (dataByte s)) (hwReadData s)).bind (fun _ s =>
      .go () { s with slaveState := .start }))

/-- S_DR_FILL (R278). -/
def sDrFill (s : State) : Flow Unit := .go () (fill s)

/-- `stop()` when a transaction was active, else nothing (R279). -/
def stopIfActive (s : State) : Flow Unit :=
  if midStream s.slaveState then (callSlave .stop s).bind (fun _ s => .go () s) else .go () s

/-- S_STOP (R279). -/
def sStop (s : State) : Flow Unit :=
  (flushIfWrite s).bind (fun _ s => (stopIfActive s).bind (fun _ s => .go () { s with slaveState := .start }))

/-- The event groups S1 to S6 with their rows (R265, 30_encoding.md R107). -/
def slaveGroups : List (List (Row × (State → Flow Unit))) :=
  [[(rowSHwto, sHwto)],
   [(rowSBer, sBer)],
   [(rowSDmaRx, sDmaRx)],
   [(rowSAmTx, sAmTx), (rowSAmRx, sAmRx)],
   [(rowSDrOverflow, sDrOverflow), (rowSDrFill, sDrFill)],
   [(rowSStop, sStop)]]

/-- S_HWTO as an instruction (R270). -/
def execSHwto (s : State) : Host.Outcome State Fault Refusal := execRow rowSHwto sHwto s

/-- S_BER as an instruction (R271). -/
def execSBer (s : State) : Host.Outcome State Fault Refusal := execRow rowSBer sBer s

/-- S_DMA_RX as an instruction (R272). -/
def execSDmaRx (s : State) : Host.Outcome State Fault Refusal := execRow rowSDmaRx sDmaRx s

/-- S_AM_TX as an instruction (R273). -/
def execSAmTx (s : State) : Host.Outcome State Fault Refusal := execRow rowSAmTx sAmTx s

/-- S_AM_RX as an instruction (R274). -/
def execSAmRx (s : State) : Host.Outcome State Fault Refusal := execRow rowSAmRx sAmRx s

/-- S_DR_OVERFLOW as an instruction (R277). -/
def execSDrOverflow (s : State) : Host.Outcome State Fault Refusal := execRow rowSDrOverflow sDrOverflow s

/-- S_DR_FILL as an instruction (R278). -/
def execSDrFill (s : State) : Host.Outcome State Fault Refusal := execRow rowSDrFill sDrFill s

/-- S_STOP as an instruction (R279). -/
def execSStop (s : State) : Host.Outcome State Fault Refusal := execRow rowSStop sStop s

end Sys2Proof.Machine
end

