-- ==== Sys2Proof/Machine/Irq.lean ====
section
/-! DEFINITION. The interrupt dispatcher: one whole invocation is one atomic step (45_dispatcher.md R310 to R316). It
saves nothing, changes no mode and restores nothing (60_exceptions.md R329, R330). -/

namespace Sys2Proof.Machine

/-- Evaluate one event group on the live state: the row that fires runs, at most one does (43_master_engine.md R220). -/
def runGroup (snap : Snapshot) (g : List (Row × (State → Flow Unit))) (s : State) : Flow Unit :=
  match g.find? (fun h => rowFires h.1 snap s) with
  | some h => h.2 s
  | none => .go () s

/-- Evaluate an engine's groups in order, until a terminal row ends the engine or a fault stops it (45_dispatcher.md
R312). -/
def runGroups (snap : Snapshot) : List (List (Row × (State → Flow Unit))) → State → Flow Unit
  | [], s => .go () s
  | g :: gs, s => (runGroup snap g s).bind (fun _ s => runGroups snap gs s)

/-- The end of an engine's invocation: acknowledge exactly the snapshot's flags (R313), unless a fault stopped the
invocation (R310, corner cases). -/
def ackSnapshot (snap : Snapshot) (x : Flow Unit) : State :=
  match x with
  | .go _ s => hwAckStatus (flagMask snap) s
  | .done s => hwAckStatus (flagMask snap) s
  | .halt s => s

/-- One dispatcher invocation: snapshot, route once on the state at entry, run the engine or the spurious guard, then
acknowledge (R310, R311, R314). -/
def dispatchIrq (s : State) : State :=
  let snap := snapshot s
  let s := hwReadStatus s
  if routedTo .master s then ackSnapshot snap (runGroups snap masterGroups s)
  else if routedTo .slave s then ackSnapshot snap (runGroups snap slaveGroups s)
  else hwAckStatus 0xFF#8 s

/-- The interrupt agent has a step (R310, 10_state.md R52). -/
def irqEnabled (s : State) : Bool := s.initialized && irqPending s

/-- IRQ (R310). Where it is not enabled the interrupt agent has no step, and nothing happens (notes/assumptions/2.md). -/
def execIrq (s : State) : Host.Outcome State Fault Refusal :=
  if irqEnabled s then .next (dispatchIrq s) else .next s

end Sys2Proof.Machine
end

