-- ==== Sys2Proof/Machine/Lifecycle.lean ====
section
/-! DEFINITION. The controller lifecycle: INIT and CONFIGURE (41_baud_lifecycle.md R175 to R177). Each is one atomic
caller step. -/

namespace Sys2Proof.Machine

/-- Program the calculator's fields: HW_SET_BAUD, then HW_SET_SCL (R175, R177). -/
def programBaud (b : BaudFields) (s : State) : State :=
  hwSetScl b.sclHigh b.sclLow (hwSetBaud b.fmPlus b.hold b.div s)

/-- The state reset inside INIT (R175): both engines Idle, no slave, no read destination, lock free, completion
unsignalled; and the DMA disarmed, which 10_state.md R53 states of the state INIT leaves (notes/assumptions/3.md). -/
def initState (s : State) : State :=
  setHw disarmDma
    { s with masterState := .idle, slaveState := .idle, slaveConfig := none, readDest := none, lock := .free,
             completion := false }

/-- The logs as a successful INIT leaves them: empty (10_state.md R53). The entries up to there, INIT's own among them, go
on in the boot logs, so none is lost (R49; DESIGN CHOICE: notes/assumptions/15.md). -/
def startLogs (s : State) : State :=
  { s with
    bootCmdLog := s.bootCmdLog ++ s.cmdLog, cmdLog := [],
    bootResultLog := s.bootResultLog ++ s.resultLog, resultLog := [] }

/-- INIT after the clock is enabled (R175): the rate, the baud fields, the state reset, the interrupt enable last.
A successful INIT leaves the logs empty (10_state.md R53). -/
def initWithClock (a : Nat) (s : State) : State :=
  let rate := rateAnswer s
  let s := { clkGetRate s with sourceClock := rate }
  match baud rate s.cfg.initialSpeed with
  | none => returnCall a .init .invalidConfig s
  | some b =>
    let s := { programBaud b s with bitrate := s.cfg.initialSpeed }
    let s := hwIrqEnable true (initState s)
    startLogs (returnCall a .init .ok { s with initialized := true })

/-- INIT after its first test (R175, R176). -/
def bringUp (a : Nat) (s : State) : State :=
  if clockAnswer s then initWithClock a (clkEnable s) else returnCall a .init .clockFailed (clkEnable s)

/-- INIT (R175, R176). -/
def execInit (s : State) : Host.Outcome State Fault Refusal :=
  let a := s.issue.caller
  if callerBusy s a then .next s
  else
    let s := enterCall a .init .none s
    if s.initialized then .next (raiseFault .doubleInit s)
    else .next (bringUp a s)

/-- The instance is in the middle of something CONFIGURE must not disturb (R177). -/
def configureConflict (s : State) : Bool :=
  decide (s.lock ≠ .free) || decide (s.masterState ≠ .idle) || midStream s.slaveState

/-- CONFIGURE (R177). It takes no lock. -/
def execConfigure (addr10 : Bool) (cls : BitVec 4) (s : State) : Host.Outcome State Fault Refusal :=
  let a := s.issue.caller
  if callerBusy s a then .next s
  else
    let s := enterCall a .configure (.configure addr10 cls) s
    if s.initialized = false then .next (raiseFault .notInitialized s)
    else
      match (if addr10 then none else classFrequency cls) with
      | none => .next (returnCall a .configure .unsupported s)
      | some f =>
        if configureConflict s then .next (raiseFault .configureWhileBusy s)
        else
          match baud s.sourceClock f with
          | none => .next (returnCall a .configure .invalidConfig s)
          | some b => .next (returnCall a .configure .ok { programBaud b s with bitrate := f })

end Sys2Proof.Machine
end

