-- ==== Sys2Proof/Machine/Registration.lean ====
section
/-! DEFINITION. The slave's registration, caller side: step 1 is the meaning of the instruction, step 2 the caller's
later sub-step (44_slave_engine.md R262, R263). -/

namespace Sys2Proof.Machine

/-- The configuration a SLAVE_REGISTER word and the callbacks beside it spell: `none` is null (R262, 10_state.md R29). -/
def wordConfig (addr10 : Bool) (addr7 : Addr7) (isNull : Bool) (cb : Nat) : Option SlaveConfig :=
  if isNull then none else some { addr7 := addr7, addr10 := addr10, cb := cb }

/-- A configuration the registration contract refuses: null, or 10-bit addressing (R262). -/
def configRefused (cfg : Option SlaveConfig) : Bool :=
  match cfg with
  | none => true
  | some c => c.addr10

/-- SLAVE_REGISTER, step 1 (R262). -/
def execSlaveRegister (addr10 : Bool) (addr7 : Addr7) (isNull : Bool) (s : State) :
    Host.Outcome State Fault Refusal :=
  let a := s.issue.caller
  let cfg := wordConfig addr10 addr7 isNull s.issue.callbacks
  if callerBusy s a then .next s
  else
    let s := enterCall a .slaveRegister (.register cfg) s
    if s.initialized = false then .next (raiseFault .notInitialized s)
    else if configRefused cfg then .next (returnCall a .slaveRegister .invalidConfig s)
    else .next (acquire a s)

/-- SLAVE_REGISTER, step 2 (R262): one atomic step under the lock. -/
def registerBody (a : Nat) (cfg : SlaveConfig) (s : State) : State :=
  if s.slaveConfig.isSome then returnCall a .slaveRegister .busy (release s)
  else
    let s := { s with slaveConfig := some cfg }
    let s := hwMatchIrq true (hwSetSlaveAddr true cfg.addr7 s)
    returnCall a .slaveRegister .ok (release { s with slaveState := .start })

/-- SLAVE_UNREGISTER, step 1 (R263). -/
def execSlaveUnregister (s : State) : Host.Outcome State Fault Refusal :=
  let a := s.issue.caller
  if callerBusy s a then .next s
  else
    let s := enterCall a .slaveUnregister .none s
    if s.initialized = false then .next (raiseFault .notInitialized s)
    else if s.slaveConfig.isNone then .next (returnCall a .slaveUnregister .invalidState s)
    else if s.masterState ≠ .idle then .next (returnCall a .slaveUnregister .busy s)
    else .next (acquire a s)

/-- SLAVE_UNREGISTER, step 2 (R263): one atomic step under the lock. -/
def unregisterBody (a : Nat) (s : State) : State :=
  if s.slaveConfig.isNone then returnCall a .slaveUnregister .invalidState (release s)
  else if s.masterState ≠ .idle ∨ midStream s.slaveState then returnCall a .slaveUnregister .busy (release s)
  else
    let s := hwAckStatus 0xFF#8 (hwMatchIrq false (hwSetSlaveAddr false 0#7 s))
    returnCall a .slaveUnregister .ok (release { s with slaveState := .idle, slaveConfig := none })

end Sys2Proof.Machine
end

