-- ==== Sys2Proof/Machine/Transfer.lean ====
section
/-! DEFINITION. TRANSFER, caller side: step 1 is the meaning of the instruction, and steps 2-3, 4, 5, 6 and 7 are the
caller's later sub-steps (42_master_caller.md R192 to R204). -/

namespace Sys2Proof.Machine

/-- The messages of a transfer: the list beside the word. Where its length is not the one the word says (R192,
"Encoding"), the spec does not say which messages the word means: they are free, as many as the word says (DESIGN CHOICE:
notes/assumptions/13.md). -/
def transferMessages (msgCount : BitVec 16) (beside : List Message) : List Message :=
  if beside.length = msgCount.toNat then beside
  else (List.range msgCount.toNat).map (Config.messageAt msgCount beside)

/-- TRANSFER, step 1 (R192): the caller enters the operation with its messages, and takes the lock or waits for it. -/
def execTransfer (addr7 : Addr7) (msgCount : BitVec 16) (s : State) : Host.Outcome State Fault Refusal :=
  let a := s.issue.caller
  if callerBusy s a then .next s
  else
    let s := enterCall a .transfer (.transfer addr7 (transferMessages msgCount s.issue.msgs)) s
    if s.initialized = false then .next (raiseFault .notInitialized s)
    else .next (acquire a s)

/-- Steps 2 and 3, one atomic step: combine, fill the transmit buffer, the counts, the destination and the address
(R192, R199, R200); `Unsupported` writes none of them and releases the lock (R201, R202). -/
def transferFill (a : Nat) (addr7 : Addr7) (msgs : List Message) (s : State) : State :=
  match combine s msgs with
  | none => returnCall a .transfer .unsupported (release s)
  | some (tx, rxLen, dest) =>
    setPc a 4
      { s with
        txBuffer := bufWriteList s.txBuffer 0 tx, txCount := tx.length, rxCount := rxLen, readDest := dest,
        deviceAddress := quickAddress addr7 msgs tx.length rxLen }

/-- `arm()`, step 4 (R193): reset the completion, program the optional timeout, move to Start, assert the start. -/
def arm (s : State) : State :=
  let s := { s with completion := false }
  let s := match s.cfg.hwTimeout with
    | some t => hwSetTimeout t s
    | none => s
  hwStart { s with masterState := .start }

/-- Step 4. -/
def transferArm (a : Nat) (s : State) : State := setPc a 5 (arm s)

/-- Step 5, wake: enabled when the completion is signalled, which it consumes (R194). -/
def transferWake (a : Nat) (s : State) : State :=
  if s.completion then setPc a 6 { s with completion := false } else s

/-- `timeoutPath()` (R195). -/
def timeoutPath (s : State) : State :=
  { hwReset s with masterState := .idle, errorCode := .timeout }

/-- Step 5, expiry: enabled when the completion is not signalled (R194). -/
def transferExpire (a : Nat) (s : State) : State :=
  if s.completion then s else setPc a 6 (timeoutPath s)

/-- The copy of `copyOut`, from index `i`, `n` bytes; it stops at an unwritten cell (R196, 60_exceptions.md R323). Byte
`i` goes to `buf + i`, also where `i` is not below the buffer's length (DESIGN CHOICE: notes/assumptions/17.md). -/
def copyLoop (buf : Nat) : Nat → Nat → State → Flow Unit
  | 0, _, s => .go () s
  | n + 1, i, s =>
    match bufRead s.rxBuffer i with
    | none => .halt (raiseFault .unwrittenBufferRead s)
    | some b => copyLoop buf n (i + 1) (setCallerByte (buf + i) b s)

/-- `copyOut()` (R196): on `OK` with a destination, `rxBuffer[0..rxCount-1]` goes into the caller's buffer. R196 derives
`rxCount ≤ len`; the count of a DMA left open by an earlier transaction (43_master_engine.md R236) can be larger, and the
copy then goes on past the buffer (DESIGN CHOICE, unsafe: notes/assumptions/17.md). -/
def copyOut (s : State) : Flow Unit :=
  match s.errorCode, s.readDest with
  | .ok, some d => copyLoop d.buf s.rxCount 0 s
  | _, _ => .go () s

/-- Step 6. -/
def transferCopyOut (a : Nat) (s : State) : State :=
  match copyOut s with
  | .go _ s => setPc a 7 s
  | .done s => s
  | .halt s => s

/-- Step 7: forget the destination, release the lock, return the recorded error code (R198). -/
def transferReturn (a : Nat) (s : State) : State :=
  returnCall a .transfer s.errorCode (release { s with readDest := none })

end Sys2Proof.Machine
end

