-- ==== Sys2Proof/Machine/Dispatch.lean ====
section
/-! DEFINITION. The dispatch: one arm per constructor of Instr, each one call of its meaning. -/

namespace Sys2Proof.Machine

def exec (i : Instr) (s : State) : Host.Outcome State Fault Refusal :=
  match i with
  -- format A: the entry points (30_encoding.md R111)
  | .init => Sys2Proof.Machine.execInit s
  | .configure addr10 cls => Sys2Proof.Machine.execConfigure addr10 cls s
  | .transfer addr7 msgCount => Sys2Proof.Machine.execTransfer addr7 msgCount s
  | .slaveRegister addr10 addr7 isNull => Sys2Proof.Machine.execSlaveRegister addr10 addr7 isNull s
  | .slaveUnregister => Sys2Proof.Machine.execSlaveUnregister s
  | .irq => Sys2Proof.Machine.execIrq s
  -- format C: the primitive commands (30_encoding.md R110)
  | .hwStart => Sys2Proof.Machine.execHwStart s
  | .hwStop => Sys2Proof.Machine.execHwStop s
  | .hwStallEn => Sys2Proof.Machine.execHwStallEn s
  | .hwStallDis => Sys2Proof.Machine.execHwStallDis s
  | .hwSendAddr addrByte => Sys2Proof.Machine.execHwSendAddr addrByte s
  | .hwDmaTx length => Sys2Proof.Machine.execHwDmaTx length s
  | .hwDmaRx length => Sys2Proof.Machine.execHwDmaRx length s
  | .hwDmaNackLast => Sys2Proof.Machine.execHwDmaNackLast s
  | .hwReset => Sys2Proof.Machine.execHwReset s
  | .hwClearStatus => Sys2Proof.Machine.execHwClearStatus s
  | .hwClearDma => Sys2Proof.Machine.execHwClearDma s
  | .hwWaitBusFree => Sys2Proof.Machine.execHwWaitBusFree s
  | .hwSetTimeout => Sys2Proof.Machine.execHwSetTimeout s
  | .hwSetBaud fmPlus hold div => Sys2Proof.Machine.execHwSetBaud fmPlus hold div s
  | .hwSetScl sclHigh sclLow => Sys2Proof.Machine.execHwSetScl sclHigh sclLow s
  | .hwSetSlaveAddr en addr7 => Sys2Proof.Machine.execHwSetSlaveAddr en addr7 s
  | .hwMatchIrq en => Sys2Proof.Machine.execHwMatchIrq en s
  | .hwAckMode nack => Sys2Proof.Machine.execHwAckMode nack s
  | .hwWriteData byte => Sys2Proof.Machine.execHwWriteData byte s
  | .hwReadData => Sys2Proof.Machine.execHwReadData s
  | .hwReadDmaCount => Sys2Proof.Machine.execHwReadDmaCount s
  | .hwReadStatus => Sys2Proof.Machine.execHwReadStatus s
  | .hwAckStatus mask => Sys2Proof.Machine.execHwAckStatus mask s
  | .hwIrqEnable en => Sys2Proof.Machine.execHwIrqEnable en s
  | .clkEnable => Sys2Proof.Machine.execClkEnable s
  | .clkGetRate => Sys2Proof.Machine.execClkGetRate s
  | .hwReadBusy => Sys2Proof.Machine.execHwReadBusy s
  -- format H: the handler rows (30_encoding.md R107)
  | .mHwto => Sys2Proof.Machine.execMHwto s
  | .mNack => Sys2Proof.Machine.execMNack s
  | .mBer => Sys2Proof.Machine.execMBer s
  | .mDrStartQuick => Sys2Proof.Machine.execMDrStartQuick s
  | .mDrStartRead => Sys2Proof.Machine.execMDrStartRead s
  | .mDrStartWrite => Sys2Proof.Machine.execMDrStartWrite s
  | .mDrWrite => Sys2Proof.Machine.execMDrWrite s
  | .mStallRead => Sys2Proof.Machine.execMStallRead s
  | .mStallQuick => Sys2Proof.Machine.execMStallQuick s
  | .mDmaWriteStop => Sys2Proof.Machine.execMDmaWriteStop s
  | .mDmaWriteRestart => Sys2Proof.Machine.execMDmaWriteRestart s
  | .mDmaRead => Sys2Proof.Machine.execMDmaRead s
  | .sHwto => Sys2Proof.Machine.execSHwto s
  | .sBer => Sys2Proof.Machine.execSBer s
  | .sDmaRx => Sys2Proof.Machine.execSDmaRx s
  | .sAmTx => Sys2Proof.Machine.execSAmTx s
  | .sAmRx => Sys2Proof.Machine.execSAmRx s
  | .sDrOverflow => Sys2Proof.Machine.execSDrOverflow s
  | .sDrFill => Sys2Proof.Machine.execSDrFill s
  | .sStop => Sys2Proof.Machine.execSStop s

end Sys2Proof.Machine
end

