-- ==== Sys2Proof/Machine/Callers.lean ====
section
/-! DEFINITION. The caller agents' steps after the first: each numbered sub-step is one atomic step (00_scope.md R9),
taken only where it is enabled. -/

namespace Sys2Proof.Machine

/-- Caller `a` takes the sub-step its record names. A sub-step that is not enabled (a lock that is held, a completion
that is not signalled) changes nothing: the caller goes on waiting (42_master_caller.md R190, R192, R194;
44_slave_engine.md R262, R263). -/
def advanceCaller (a : Nat) (s : State) : State :=
  let c := getCaller s a
  match c.op, c.pc, c.args with
  | some .transfer, 1, _ => acquire a s
  | some .transfer, 2, .transfer addr7 msgs => transferFill a addr7 msgs s
  | some .transfer, 4, _ => transferArm a s
  | some .transfer, 5, _ => transferWake a s
  | some .transfer, 6, _ => transferCopyOut a s
  | some .transfer, 7, _ => transferReturn a s
  | some .slaveRegister, 1, _ => acquire a s
  | some .slaveRegister, 2, .register (some cfg) => registerBody a cfg s
  | some .slaveUnregister, 1, _ => acquire a s
  | some .slaveUnregister, 2, _ => unregisterBody a s
  | _, _, _ => s

/-- The expiry of the lock wait: enabled only while the lock is held, by another caller or by this one; the operation
returns `Busy` (42_master_caller.md R190). -/
def lockExpire (a : Nat) (op : EntryPoint) (s : State) : State :=
  match s.lock with
  | .free => s
  | .held _ => returnCall a op .busy s

/-- Caller `a`'s bounded wait expires, if it is in one and its expiry is enabled (42_master_caller.md R190, R194). -/
def expireCaller (a : Nat) (s : State) : State :=
  let c := getCaller s a
  match c.op, c.pc with
  | some .transfer, 1 => lockExpire a .transfer s
  | some .slaveRegister, 1 => lockExpire a .slaveRegister s
  | some .slaveUnregister, 1 => lockExpire a .slaveUnregister s
  | some .transfer, 5 => transferExpire a s
  | _, _ => s

end Sys2Proof.Machine
end

