-- ==== Sys2Proof/Machine/Env.lean ====
section
/-! DEFINITION. The controller agent: the hardware controller, the bus and the DMA engine behind the register block
(60_exceptions.md R331). Every action is taken only where its condition holds and is appended to `busLog`. -/

namespace Sys2Proof.Machine

/-- A flag that action (a) may raise in this register block: STALL only with the stall enabled, HWTO only with the
timeout enabled; AM and DMAC have actions of their own (R331 (a)). -/
def mayRaise (h : Hw) (f : Flag) : Bool :=
  match f with
  | .dr | .ber | .nack | .sstop => true
  | .stall => h.stallEn
  | .hwto => h.toEn
  | .am | .dmac => false

/-- The condition of an action (R331). -/
def envEnabled (h : Hw) (e : EnvAction) : Bool :=
  match e with
  | .raise f => mayRaise h f
  | .finishStart => h.start
  | .finishStop => h.stop
  | .dmaTransmit => decide (h.dmaDir = .tx) && dmaArmedOpen h
  | .dmaReceive _ => decide (h.dmaDir = .rx) && dmaArmedOpen h
  | .addressMatch _ => h.matchEn
  | .dmaComplete => h.dmaActive
  | .receiveData _ => true
  | .setBusy _ => true

/-- One byte more has been moved. -/
def countByte (h : Hw) : Hw := { h with dmaCount := h.dmaCount + 1 }

/-- (c): the DMA reads the cell at its count, puts the byte on the bus and counts it; an unwritten cell faults (R331
(c), R323). -/
def dmaTransmitByte (s : State) : State :=
  match bufRead s.txBuffer s.hw.dmaCount with
  | none => raiseFault .unwrittenBufferRead s
  | some b => setHw countByte (logBus (.txByte b) s)

/-- (d): the DMA writes the byte at its count and counts it (R331 (d)). -/
def dmaReceiveByte (b : Byte) (s : State) : State :=
  setHw countByte (logBus (.rxByte b) { s with rxBuffer := bufWrite s.rxBuffer s.hw.dmaCount b })

/-- The effect of an action whose condition holds (R331). -/
def envEffect (e : EnvAction) (s : State) : State :=
  match e with
  | .raise f => logBus (.raised f) (setHw (fun h => { h with flags := h.flags.set f }) s)
  | .finishStart => logBus .startDone (setHw (fun h => { h with start := false }) s)
  | .finishStop => logBus .stopDone (setHw (fun h => { h with stop := false }) s)
  | .dmaTransmit => dmaTransmitByte s
  | .dmaReceive b => dmaReceiveByte b s
  | .addressMatch d => logBus (.matched d) (setHw (fun h => { h with flags := h.flags.set .am, xmit := d }) s)
  | .dmaComplete => logBus .dmaDone (setHw (fun h => { h with flags := h.flags.set .dmac, dmaActive := false }) s)
  | .receiveData b => logBus (.dataByte b) (setHw (fun h => { h with dataIn := some b }) s)
  | .setBusy v => logBus (.busy v) (setHw (fun h => { h with busBusy := v }) s)

/-- One controller-agent step. Before INIT has succeeded no agent but a caller has a step (41_baud_lifecycle.md R175,
70_reset_and_hazards.md R360), and an action whose condition does not hold is no step: nothing happens. -/
def envStep (e : EnvAction) (s : State) : State :=
  if s.initialized && envEnabled s.hw e then envEffect e s else s

end Sys2Proof.Machine
end

