-- ==== Sys2Proof/Machine/Fetch.lean ====
section
/-! DEFINITION. What runs next. The block fetches no instructions (10_state.md R51): the next input of the schedule says
which agent steps, and an operation word or a trigger key in it is decoded here (30_encoding.md R113). -/

namespace Sys2Proof.Machine

/-- What the next step is. -/
inductive Fetched where
  /-- A fault is recorded: no agent has a step (60_exceptions.md R323). -/
  | stop (r : Fault)
  /-- The word has no meaning (60_exceptions.md R324). -/
  | refuse (r : Refusal)
  /-- An instruction runs in the state with the input taken off the schedule. -/
  | run (i : Instr) (s : State)
  /-- Another agent's step, already taken; or no step. -/
  | agent (s : State)

/-- The row a key fires: the first candidate whose guard holds (30_encoding.md R106, R107, R113). -/
def selectRow (k : KeyWord) (s : State) : Option Instr :=
  ((rowsOfKey k).find? (fun r => guardHolds r.guard s)).map Row.instr

/-- An operation word may be issued: always an entry point (opcodes below 0x10; before INIT they fault on their own
account), a command on its own only once INIT has succeeded, since before it a caller running INIT is the only step
(70_reset_and_hazards.md R360). -/
def wordEnabled (w : OpWord) (s : State) : Bool := s.initialized || decide ((OpWord.opcode w).toNat < 0x10)

/-- Decode and run one input, already taken off the schedule. Before INIT neither a command nor a handler row is a step
(R360). -/
def fetchInput (x : Input) (s : State) : Fetched :=
  match x with
  | .word w beside =>
    match decodeWord w with
    | .ok i => if wordEnabled w s then .run i { s with issue := beside } else .agent s
    | .error _ => .refuse .reservedEncoding
  | .key k =>
    match selectRow k s with
    | some i => if s.initialized then .run i s else .agent s
    | none => .agent s
  | .advance a => .agent (advanceCaller a s)
  | .expire a => .agent (expireCaller a s)
  | .env e => .agent (envStep e s)
  | .store address b => .agent (setCallerByte address b s)

/-- The next step: none after a fault; with nothing scheduled the machine idles. -/
def fetch (s : State) : Fetched :=
  match s.faults with
  | r :: _ => .stop r
  | [] =>
    match s.schedule with
    | [] => .agent s
    | x :: rest => fetchInput x { s with schedule := rest }

/-! ### Placing an instruction (notes/assumptions/2.md) -/

/-- A caller agent that has called nothing: its number is above every listed one. -/
def freshCaller (s : State) : Nat := s.callers.foldr (fun c n => max (c.1 + 1) n) 0

/-- What stands beside a placed word: a fresh caller, and for TRANSFER as many (empty write) messages as the word
says. -/
def placedIssue (w : OpWord) (s : State) : Issue :=
  match decodeWord w with
  | .ok (.transfer _ n) =>
    { caller := freshCaller s, msgs := List.replicate n.toNat { dir := .write, len := 0, buf := 0 }, callbacks := 0 }
  | _ => { caller := freshCaller s, msgs := [], callbacks := 0 }

/-- The engine state a key's rows need: the key's own state where it names one that is not Idle, else Start. -/
def placedPhase (k : KeyWord) : Phase :=
  match Phase.ofCode (k.extractLsb' 12 3) with
  | some .idle => .start
  | some p => p
  | none => .start

/-- Make the engine of a key's role the one that runs, in the key's state (45_dispatcher.md R311), of an initialized
instance; for the two hardware-timeout rows, with the timeout parameter present. -/
def placedEngine (k : KeyWord) (s : State) : State :=
  let s := if k.getLsbD 7 then { s with cfg := { s.cfg with hwTimeout := some [] } } else s
  let s := { s with initialized := true }
  if k.getLsbD 15 then
    { s with masterState := .idle, slaveState := placedPhase k,
             slaveConfig := some (s.slaveConfig.getD { addr7 := 0#7, addr10 := false, cb := 0 }) }
  else { s with masterState := placedPhase k }

/-- What a placed word needs beside it: a command needs an initialized instance (`wordEnabled`), and HW_SET_TIMEOUT,
which carries its thresholds from the timeout parameter (40_hw_commands.md R142), has the parameter present. -/
def placedOperand (w : OpWord) (s : State) : State :=
  let s := if wordEnabled w s then s else { s with initialized := true }
  match decodeWord w with
  | .ok .hwSetTimeout => { s with cfg := { s.cfg with hwTimeout := some [] } }
  | _ => s

/-- The state whose very next step runs the instruction of `nbits` bits `w`: a word is put first on the schedule with
what stands beside it, a key with its engine running. -/
def placeWord (s : State) (nbits w : Nat) : State :=
  if nbits = 16 then
    let k := BitVec.ofNat 16 w
    let s := placedEngine k s
    { s with faults := [], schedule := .key k :: s.schedule }
  else
    let w := BitVec.ofNat 32 w
    let s := placedOperand w s
    { s with faults := [], schedule := .word w (placedIssue w s) :: s.schedule }

end Sys2Proof.Machine
end

