-- ==== Sys2Proof/Machine/Step.lean ====
section
/-! DEFINITION. One step of the machine: the next input of the schedule, decoded and run. -/

namespace Sys2Proof.Machine

/-- One atomic step of one agent (00_scope.md R9, 20_memory.md R79). -/
def step (s : State) : Host.Outcome State Fault Refusal :=
  match fetch s with
  | .stop r => .fault r
  | .refuse r => .refused r
  | .run i t => exec i t
  | .agent t => .next t

/-- `s` with the instruction of `nbits` bits `w` placed where `step` takes its next instruction. -/
def State.withFetchWord (s : State) (nbits w : Nat) : State := placeWord s nbits w

end Sys2Proof.Machine
end

