-- ==== Sys2Proof/Machine/Premises.lean ====
section
/-! DEFINITION. The spec's named premises on runs, no rules of the machine: WellBehavedEnv (60_exceptions.md R332) and
the weak fairness of the interrupt and of the callers (45_dispatcher.md R316, 60_exceptions.md R340). -/

namespace Sys2Proof.Machine

/-! ### WellBehavedEnv (R332; DEDUCED from its table: notes/assumptions/12.md). A claim names the error flags it
admits, of `BER` and `HWTO`: `named` is none of them in the premise as it stands -/

/-- What the controller owes to the last command of a master transaction: a row of R332's table, or nothing. -/
inductive MasterOwed where
  | nothing
  /-- After HW_START in master Start. -/
  | start
  /-- After HW_SEND_ADDR: whether it is a write, and whether the stall was enabled. -/
  | address (write stall : Bool)
  /-- After the master's HW_DMA_TX. -/
  | transmit
  /-- After the master's HW_DMA_RX. -/
  | receive
  deriving DecidableEq, Repr, Inhabited

/-- What the controller owes to the last command of a slave transaction. -/
inductive SlaveOwed where
  | nothing
  /-- After the slave's HW_DMA_RX. -/
  | receive
  /-- The 257th byte was supplied, its data-ready is due. -/
  | overflow
  /-- HW_RESET came since: its data-ready may still come, late, but is no longer due. -/
  | overflowLate
  /-- After the slave's HW_DMA_TX. -/
  | transmit
  deriving DecidableEq, Repr, Inhabited

/-- What R332 remembers along a run. -/
structure Watch where
  /-- One of `DR`, `NACK`, `STALL`, `DMAC`, `AM`, `SSTOP` was raised since the last invocation. -/
  raised : Bool
  master : MasterOwed
  /-- HW_RESET came since `master` was owed: the reaction may still come, late, but is no longer due. -/
  late : Bool
  slave : SlaveOwed
  /-- A master on the bus has addressed the slave and has not stopped. -/
  addressed : Bool
  /-- HW_STOP was issued, and the bus has not become busy again since it went free. -/
  stopping : Bool
  deriving DecidableEq, Repr, Inhabited

/-- Nothing owed: the start of a run. -/
def Watch.quiet : Watch :=
  { raised := false, master := .nothing, late := false, slave := .nothing, addressed := false, stopping := false }

/-- The watch after one of the flags was raised. -/
def Watch.flagged (w : Watch) : Watch := { w with raised := true }

/-- The watch after a command of the master that asks for a reaction. -/
def Watch.asks (w : Watch) (o : MasterOwed) : Watch := { w with master := o, late := false }

/-- What a disarmed DMA leaves owed of the master's: the start and the address phase. -/
def MasterOwed.disarmed : MasterOwed → MasterOwed
  | .nothing => .nothing
  | .start => .start
  | .address write stall => .address write stall
  | .transmit => .nothing
  | .receive => .nothing

/-- What a disarmed DMA leaves owed of the slave's: the data-ready of the 257th byte, which came outside the DMA. -/
def SlaveOwed.disarmed : SlaveOwed → SlaveOwed
  | .nothing => .nothing
  | .receive => .nothing
  | .overflow => .overflow
  | .overflowLate => .overflowLate
  | .transmit => .nothing

/-- What HW_RESET leaves owed of the slave's: the data-ready of the 257th byte may come late and is no longer due. R332
gives no reset as an exception, so this is the model's reading (DESIGN CHOICE: notes/assumptions/12.md). -/
def SlaveOwed.afterReset (o : SlaveOwed) : SlaveOwed :=
  match o with
  | .overflow | .overflowLate => .overflowLate
  | .nothing | .receive | .transmit => .nothing

/-- The watch after a command, issued in a step that ends in `t`, by the master's side or the slave's. A DMA armed by
one side is no longer the other's; after HW_RESET a start or an address phase may be answered late (95_test_vectors.md
P5), and so may the slave's 257th byte. -/
def commandOwes (byMaster : Bool) (t : State) (w : Watch) (e : CmdEntry) : Watch :=
  match (OpWord.opcode e.word).toNat with
  | 0x10 => w.asks (if t.masterState = .start then .start else .nothing)
  | 0x11 => { w with master := .nothing, stopping := true }
  | 0x14 => w.asks (.address (!e.word.getLsbD 16) t.hw.stallEn)
  | 0x15 =>
    if byMaster then { w.asks .transmit with slave := w.slave.disarmed }
    else { w with master := w.master.disarmed, slave := .transmit }
  | 0x16 =>
    if byMaster then { w.asks .receive with slave := w.slave.disarmed }
    else { w with master := w.master.disarmed, slave := .receive }
  | 0x18 => { w with master := w.master.disarmed, late := true, slave := w.slave.afterReset }
  | _ => w

/-- The master's command still waits for its reaction. -/
def Watch.masterDue (w : Watch) : Bool := decide (w.master ≠ .nothing) && !w.late

/-- The slave's 257th byte waits for its data-ready, or its full window for `DMAC`. In master `Read` no `DMAC` of the
slave's is due (see `reactDmac`). -/
def Watch.slaveDue (w : Watch) (s : State) : Bool :=
  decide (w.slave = .overflow) ||
    (decide (w.slave = .receive ∧ s.hw.dmaCount = slaveWindow ∧ s.masterState ≠ .read) && s.hw.dmaActive)

/-- A requested stop is not finished, or the bus is not free after it. -/
def Watch.stopDue (w : Watch) (s : State) : Bool := w.stopping && (s.hw.stop || s.hw.busBusy)

/-- Some reaction of R332's table is due. -/
def Watch.due (w : Watch) (s : State) : Bool := w.masterDue || w.slaveDue s || w.stopDue s

/-- A well-behaved controller may raise `DR`: once for a finished start and for an acknowledged write address without
stall, for the slave's 257th byte, and for each byte the master reads beyond the sent reply. -/
def reactDr (w : Watch) (s : State) : Option Watch :=
  if (w.master = .start ∨ w.master = .address true false) ∧ s.hw.start = false then
    some { w.flagged with master := .nothing }
  else if w.slave = .overflow ∨ w.slave = .overflowLate then some { w.flagged with slave := .nothing }
  else if w.slave = .transmit ∧ s.hw.dmaCount = s.hw.dmaLen then some w.flagged
  else none

/-- It may raise `NACK`: for an address, and after a byte the target refuses. -/
def reactNack (w : Watch) (s : State) : Option Watch :=
  match w.master with
  | .address _ _ => if s.hw.start then none else some { w.flagged with master := .nothing }
  | .transmit => if 0 < s.hw.dmaCount then some { w.flagged with master := .nothing } else none
  | .nothing | .start | .receive => none

/-- It may raise `STALL`: for an acknowledged address with the stall enabled. -/
def reactStall (w : Watch) (s : State) : Option Watch :=
  match w.master with
  | .address _ true => if s.hw.start then none else some { w.flagged with master := .nothing }
  | .address _ false | .nothing | .start | .transmit | .receive => none

/-- It may raise `DMAC`: for the master's sent segment, at any count of the master's receive, and at the slave's 256th
byte, but not in master `Read` before the stall has armed the receive. The last is DEDUCED: R332's table gives the full
slave window a `DMAC`, 43_master_engine.md R236 says WellBehavedEnv excludes every `DMAC` there, and the model follows
R236 (notes/assumptions/12.md). -/
def reactDmac (w : Watch) (s : State) : Option Watch :=
  match w.master with
  | .transmit => if s.hw.dmaCount = s.hw.dmaLen then some { w.flagged with master := .nothing } else none
  | .receive => some { w.flagged with master := .nothing }
  | .nothing | .start | .address _ _ =>
    if w.slave = .receive ∧ s.hw.dmaCount = slaveWindow ∧ s.masterState ≠ .read then some w.flagged else none

/-- It may make the bus busy or free, but not busy between HW_STOP and the free bus after it. -/
def reactBusy (w : Watch) (s : State) (v : Bool) : Option Watch :=
  if v then (if w.stopDue s then none else some { w with stopping := false }) else some w

/-- It may raise an error flag only in a claim that names it. The error stands for the reaction the master was owed,
which is then no longer due; the interrupt resets the controller. `BER` and `HWTO` are none of the six flags of which one
is raised between two invocations. -/
def reactError (named : List Flag) (w : Watch) (f : Flag) : Option Watch :=
  if f ∈ named then some { w with late := true } else none

/-- Another master's stop: of an addressed slave, and only once the slave's full window or its 257th byte has had its
reaction. -/
def reactSstop (w : Watch) (s : State) : Option Watch :=
  if w.addressed && !w.slaveDue s then some { w.flagged with slave := .nothing, addressed := false } else none

/-- Another master's address: likewise only once no reaction of the slave's is due. -/
def reactMatch (w : Watch) (s : State) : Option Watch :=
  if w.slaveDue s then none else some { w.flagged with slave := .nothing, addressed := true }

/-- The reactions of R332's table: whether a well-behaved controller may take this action, and the watch after it. At
most one of the six flags is raised between two invocations; `BER` and `HWTO` are raised only where the claim names
them. -/
def react (named : List Flag) (w : Watch) (s : State) (e : EnvAction) : Option Watch :=
  match e with
  | .raise .dr => if w.raised then none else reactDr w s
  | .raise .nack => if w.raised then none else reactNack w s
  | .raise .stall => if w.raised then none else reactStall w s
  | .raise .sstop => if w.raised then none else reactSstop w s
  | .raise .ber => reactError named w .ber
  | .raise .hwto => reactError named w .hwto
  | .raise .am | .raise .dmac => none
  | .finishStart | .finishStop => some w
  | .dmaTransmit => if w.master = .transmit ∨ w.slave = .transmit then some w else none
  | .dmaReceive _ => if w.master = .receive ∨ w.slave = .receive then some w else none
  | .addressMatch _ => if w.raised then none else reactMatch w s
  | .dmaComplete => if w.raised then none else reactDmac w s
  | .receiveData _ =>
    if w.slave = .receive ∧ s.hw.dmaCount = slaveWindow ∧ s.hw.dmaActive = false then
      some { w with slave := .overflow }
    else none
  | .setBusy v => reactBusy w s v

/-- The input is an interrupt invocation that is taken. -/
def invokes (x : Input) (s : State) : Bool :=
  match x with
  | .word w _ => decide (decodeWord w = .ok .irq) && irqEnabled s
  | .key _ | .advance _ | .expire _ | .env _ | .store _ _ => false

/-- One step of a run under the watch, from `s` to `t`: `none` where the controller takes an action that R332 does not
give it. A disabled action is no step of it. -/
def Watch.next (named : List Flag) (w : Watch) (s t : State) : Option Watch :=
  match s.schedule with
  | [] => some w
  | .env e :: _ => if s.initialized && envEnabled s.hw e then react named w s e else some w
  | x :: _ =>
    some ((t.cmdLog.drop s.cmdLog.length).foldl (commandOwes (decide (s.masterState ≠ .idle)) t)
      (if invokes x s then { w with raised := false } else w))

/-- The watch along `n` steps from `s`, and the state there; `none` where the controller takes an action R332 does not
give it. A run that a fault or a refusal stops owes nothing more. -/
def watchSteps (named : List Flag) : Nat → Watch → State → Option (Watch × State)
  | 0, w, s => some (w, s)
  | n + 1, w, s =>
    match step s with
    | .next t =>
      match w.next named s t with
      | some w => watchSteps named n w t
      | none => none
    | .fault _ => some (Watch.quiet, s)
    | .refused _ => some (Watch.quiet, s)

/-- WellBehavedEnv of the first `n` steps of a run: the controller takes no action but the table's and the errors
named. -/
def wellBehavedPrefix (named : List Flag) (n : Nat) (s : State) : Bool := (watchSteps named n Watch.quiet s).isSome

/-- WellBehavedEnv of a run of `n` steps that ends there: and every reaction of the table has come. -/
def wellBehavedEnv (named : List Flag) (n : Nat) (s : State) : Bool :=
  match watchSteps named n Watch.quiet s with
  | some (w, t) => !w.due t
  | none => false

/-! ### Premises on an infinite run, whose inputs the outside supplies one by one: R332, and weak fairness (R316, R340) -/

/-- The machine answers a next state to every input, from `run 0` on. -/
def isRun (inputs : Nat → Input) (run : Nat → State) : Prop :=
  ∀ n, step { run n with schedule := [inputs n] } = .next (run (n + 1))

/-- The watch before step `n` of an infinite run. -/
def watchAt (named : List Flag) (inputs : Nat → Input) (run : Nat → State) : Nat → Option Watch
  | 0 => some Watch.quiet
  | n + 1 =>
    (watchAt named inputs run n).bind (fun w => w.next named { run n with schedule := [inputs n] } (run (n + 1)))

/-- WellBehavedEnv of an infinite run (R332): the controller takes no action but the table's and the
errors named, and no reaction of the master's, of the slave's or of a stop stays due for ever. -/
def wellBehavedRun (named : List Flag) (inputs : Nat → Input) (run : Nat → State) : Prop :=
  (∀ n, watchAt named inputs run n ≠ none) ∧
  (∀ n, ∃ m, n ≤ m ∧ ∀ w, watchAt named inputs run m = some w → w.masterDue = false) ∧
  (∀ n, ∃ m, n ≤ m ∧ ∀ w, watchAt named inputs run m = some w → w.slaveDue (run m) = false) ∧
  (∀ n, ∃ m, n ≤ m ∧ ∀ w, watchAt named inputs run m = some w → w.stopDue (run m) = false)

/-- The interrupt agent is weakly fair: if an invocation is enabled from some point on, one is taken after it (R316). -/
def fairInterrupt (inputs : Nat → Input) (run : Nat → State) : Prop :=
  ∀ n, (∀ m, n ≤ m → irqEnabled (run m) = true) → ∃ m, n ≤ m ∧ invokes (inputs m) (run m) = true

/-- Caller `a` has an enabled step: its next sub-step, or the expiry of the wait it is in. -/
def callerEnabled (a : Nat) (s : State) : Bool := decide (advanceCaller a s ≠ s) || decide (expireCaller a s ≠ s)

/-- The input is a step of caller `a`, and it is enabled. -/
def callerSteps (a : Nat) (x : Input) (s : State) : Bool :=
  decide (x = .advance a ∧ advanceCaller a s ≠ s) || decide (x = .expire a ∧ expireCaller a s ≠ s)

/-- Caller `a` is weakly fair: if it has an enabled step from some point on, it takes one after it (R340). -/
def fairCaller (a : Nat) (inputs : Nat → Input) (run : Nat → State) : Prop :=
  ∀ n, (∀ m, n ≤ m → callerEnabled a (run m) = true) → ∃ m, n ≤ m ∧ callerSteps a (inputs m) (run m) = true

/-- The fairness premises of R340: of the interrupt and of every caller. The controller agent is not fair; under
`wellBehavedRun` it reacts all the same. -/
def fairRun (inputs : Nat → Input) (run : Nat → State) : Prop :=
  fairInterrupt inputs run ∧ ∀ a, fairCaller a inputs run

end Sys2Proof.Machine
end

