-- ==== Sys2Proof/Safety.lean ====
section
/-! DEFINITION. The terms the claims use: the invariant of the machine, the end of a run (60_exceptions.md R341), and
shorthands for log entries. The premises on runs are those of Machine/Premises.lean. -/

namespace Sys2Proof.Machine

/-! ### Shorthands for logs and results -/

/-- The log entry of a command without a result. -/
def plainCmd (w : OpWord) : CmdEntry := { word := w, thresholds := none, result := none }

/-- The log entry of a command with a result. -/
def readCmd (w : OpWord) (r : CmdResult) : CmdEntry := { word := w, thresholds := none, result := some r }

/-- The record of a caller whose operation has returned (10_state.md R38). -/
def returned (kind : ErrorKind) : Caller := { op := none, pc := 0, args := .none, result := some kind }

/-- The caller may call: it is inside no operation. -/
abbrev callerFree (s : State) : Prop := (getCaller s s.issue.caller).op = none

/-- `t` differs from `s` in caller `a`'s record alone, as far as callers go. -/
abbrev othersKept (a : Nat) (s t : State) : Prop := ∀ b, b ≠ a → getCaller t b = getCaller s b

/-- The log entry of a `writeReceived` call whose answer carries the status `st` (44_slave_engine.md R260). -/
def receivedEntry (b : Byte) (st : Nat) : CbEntry := { call := .writeReceived b, answer := .status st }

/-- `bytes` are the received bytes a FLUSH delivers: as many as the DMA counted, the written cells from index 0
(44_slave_engine.md R268). -/
abbrev receivedBytes (s : State) (bytes : List Byte) : Prop :=
  bytes.length = s.hw.dmaCount ∧ ∀ i, i < bytes.length → bufRead s.rxBuffer i = bytes[i]?

/-- The log entries of one `writeReceived` per byte, each with its own answer, in order. -/
def receivedEntries (bytes : List Byte) (answers : List (Nat × Byte)) : List CbEntry :=
  (bytes.zip answers).map (fun p => receivedEntry p.1 p.2.1)

/-- Answers that carry a value, as the oracle queues them. -/
def valueAnswers (answers : List (Nat × Byte)) : List CallbackAnswer :=
  answers.map (fun p => CallbackAnswer.value p.1 p.2)

/-- Caller `a` stands at sub-step `n` of an operation. -/
abbrev atStep (s : State) (a : Nat) (op : EntryPoint) (n : Nat) (args : CallArgs) : Prop :=
  getCaller s a = { op := some op, pc := n, args := args, result := none }

/-- The record of a caller at sub-step `n` of an operation. -/
def inStep (op : EntryPoint) (n : Nat) (args : CallArgs) : Caller :=
  { op := some op, pc := n, args := args, result := none }

/-- The interrupt agent has a step (45_dispatcher.md R310). -/
abbrev irqReady (s : State) : Prop := s.initialized = true ∧ irqPending s = true

/-- The slave engine gets the interrupt (45_dispatcher.md R311 (b)). -/
abbrev slaveActive (s : State) : Prop :=
  s.masterState = .idle ∧ s.slaveConfig ≠ none ∧ s.slaveState ≠ .idle

/-! ### The invariant -/

/-- No callback, controller step or slave error is logged, no buffer cell is written, and the boot logs are empty. -/
abbrev State.fresh (s : State) : Prop :=
  s.cbLog = [] ∧ s.busLog = [] ∧ s.slaveErrors = [] ∧ s.txBuffer = [] ∧ s.rxBuffer = [] ∧ s.bootCmdLog = [] ∧
  s.bootResultLog = []

/-- The operation is at a sub-step that it has between two atomic steps, with its arguments (42_master_caller.md R192,
44_slave_engine.md R262, R263). -/
def atSubStep (f : Frame) : Prop :=
  match f.op, f.args with
  | .transfer, .transfer _ _ => f.pc = 1 ∨ f.pc = 2 ∨ f.pc = 4 ∨ f.pc = 5 ∨ f.pc = 6 ∨ f.pc = 7
  | .slaveRegister, .register (some _) => f.pc = 1 ∨ f.pc = 2
  | .slaveUnregister, _ => f.pc = 1 ∨ f.pc = 2
  | _, _ => False

/-- The invariant every step keeps, from every state that has it. -/
structure State.Inv (s : State) : Prop where
  /-- The memories keep their canonical form and their cells (10_state.md R25). -/
  memory : s.memoryWf
  /-- So does the callers' list. -/
  callers : s.callersWf
  /-- The counts are in 0..256 (R26). -/
  counts : s.txCount ≤ 256 ∧ s.rxCount ≤ 256
  /-- `hw.dmaCount` is in 0..`hw.dmaLen` and `hw.dmaLen` in 0..256 (R42). -/
  dma : s.hw.dmaCount ≤ s.hw.dmaLen ∧ s.hw.dmaLen ≤ 256
  /-- `s.slaveConfig = none` if and only if `s.slaveState = Idle` (R37 (e)). -/
  slave : s.slaveConfig = none ↔ s.slaveState = .idle
  /-- A caller past its acquire holds the lock (R38). -/
  lock : ∀ a, 2 ≤ (getCaller s a).pc → s.lock = .held a
  /-- A caller inside a second call holds the lock and stands at the second call's sub-step 1; the first call is not
  between its arm and its wake (42_master_caller.md R190, R194). -/
  second : ∀ a f, (getCaller s a).outer = some f →
    s.lock = .held a ∧ (getCaller s a).op ≠ none ∧ (getCaller s a).pc = 1 ∧ awaitsSignal f = false
  /-- The master state leaves Idle only between a transfer caller's arm and its wake or expiry, with the completion
  unsignalled (44_slave_engine.md R263; 20_memory.md R80). -/
  master : s.masterState ≠ .idle →
    s.completion = false ∧
      ∃ a, s.lock = .held a ∧ (getCaller s a).op = some .transfer ∧ (getCaller s a).pc = 5
  /-- In `Write` there is data to send and in `Read` there is a read segment (43_master_engine.md R231, R232). -/
  segments : (s.masterState = .write → 0 < s.txCount) ∧ (s.masterState = .read → 0 < s.rxCount)
  /-- Before a successful INIT no caller is past sub-step 1, and none is in an operation unless a fault is recorded
  (70_reset_and_hazards.md R360). -/
  boot : s.initialized = false →
    (∀ a, (getCaller s a).pc ≤ 1) ∧ (s.faults = [] → ∀ a, (getCaller s a).op = none)
  /-- Before it no agent but a caller in INIT has logged anything and no buffer cell is written, so INIT leaves them so
  (10_state.md R53). -/
  fresh : s.initialized = false → s.fresh
  /-- Unless a fault is recorded, a caller stands at a sub-step of each operation it is in (R38). -/
  subSteps : s.faults = [] →
    ∀ a f, callFrame (getCaller s a) = some f ∨ (getCaller s a).outer = some f → atSubStep f

/-! ### The end of a run (60_exceptions.md R341) -/

/-- A state in which a run ends: no fault recorded, every caller has returned, no interrupt pending. (A refusal is an
outcome of a step, so a run that refused has no such state.) It says nothing of the bus or of the controller agent. -/
def State.final (s : State) : Bool :=
  s.faults.isEmpty && s.callers.all (fun c => c.2.op.isNone) && !irqPending s

end Sys2Proof.Machine
end

