-- ==== Sys2Proof/Certificates/Slice0/Obligations.lean ====
section
/-! DEFINITION. The statements about the machine, for the provers: encodings, the step, every instruction's effect with
its frame, the callers' sub-steps, the interrupt, the controller agent, and what holds of the whole machine. -/

open Sys2Proof Sys2Proof.Machine

/-! ### Encodings -/

/-- Words written out in the spec's examples decode to the operations they stand for, and keys to their rows
(30_encoding.md R106, R110, R111; examples of 40_hw_commands.md). -/
def Obligations.SpecWordsDecode : Prop :=
  decodeWord 0x14A10000#32 = .ok (.hwSendAddr 0xA1#8) ∧
  decodeWord 0x15000002#32 = .ok (.hwDmaTx 2#16) ∧
  decodeWord 0x16000100#32 = .ok (.hwDmaRx 256#16) ∧
  decodeWord 0x1D44F000#32 = .ok (.hwSetBaud false 17#5 120#9) ∧
  decodeWord 0x1DC41800#32 = .ok (.hwSetBaud true 17#5 12#9) ∧
  decodeWord 0x1E00900B#32 = .ok (.hwSetScl 9#12 11#12) ∧
  decodeWord 0x1FC20000#32 = .ok (.hwSetSlaveAddr true 0x42#7) ∧
  decodeWord 0x260000FF#32 = .ok (.hwAckStatus 0xFF#8) ∧
  decodeWord 0x03500002#32 = .ok (.transfer 0x50#7 2#16) ∧
  decodeKey 0x3008#16 = [.mStallRead] ∧
  decodeKey 0x1001#16 = [.mDrStartQuick, .mDrStartRead, .mDrStartWrite] ∧
  decodeKey 0x8110#16 = [.sAmTx]

/-- Decoding an instruction's code gives it back: alone for an operation word, among the rows of its key for a handler
row, with every operand at every value of its field (30_encoding.md R106 to R113). -/
def Obligations.EncodedInstructionsDecodeBack : Prop :=
  ∀ i : Instr,
    (i.isKeyRow = false → decode (encode i) = [i]) ∧
    (i.isKeyRow = true → i ∈ decode (encode i))

/-- A word that decodes is the word of what it decodes to: no two words have one meaning, and no bit is ignored
(30_encoding.md R108, R113). -/
def Obligations.DecodedWordsEncodeBack : Prop :=
  ∀ (w : OpWord) (i : Instr), decodeWord w = .ok i → i.isKeyRow = false ∧ encodeWord i = w

/-- A word with a reserved opcode is refused (30_encoding.md R109, 60_exceptions.md R324). -/
def Obligations.ReservedOpcodesAreRefused : Prop :=
  ∀ (s : State) (w : OpWord) (b : Issue) (rest : List Input),
    s.faults = [] → s.schedule = .word w b :: rest →
    ((OpWord.opcode w).toNat = 0 ∨ (7 ≤ (OpWord.opcode w).toNat ∧ (OpWord.opcode w).toNat ≤ 0x0F) ∨
      0x2B ≤ (OpWord.opcode w).toNat) →
    step s = .refused .reservedEncoding

/-- A word that is no instruction's word is refused: unused bits that are not 0 are among these (30_encoding.md
R113). -/
def Obligations.OtherWordsAreRefused : Prop :=
  ∀ (s : State) (w : OpWord) (b : Issue) (rest : List Input),
    s.faults = [] → s.schedule = .word w b :: rest →
    (∀ i : Instr, i.isKeyRow = false → encodeWord i ≠ w) →
    step s = .refused .reservedEncoding

/-- Within one event group at most one row fires (30_encoding.md R107). -/
def Obligations.GroupRowsAreExclusive : Prop :=
  ∀ (snap : Snapshot) (s : State), ∀ r ∈ rowTable, ∀ q ∈ rowTable,
    r.role = q.role → r.group = q.group → rowFires r snap s = true → rowFires q snap s = true → r = q

/-- A key with a non-zero reserved field or a reserved state code matches no row, and firing nothing is its whole step
(30_encoding.md R113, 60_exceptions.md R324). -/
def Obligations.IllegalKeysFireNothing : Prop :=
  ∀ (s : State) (k : KeyWord) (rest : List Input),
    (k.extractLsb' 9 3 ≠ 0#3 ∨ 5 ≤ (k.extractLsb' 12 3).toNat) →
    decodeKey k = [] ∧
    (s.faults = [] → s.schedule = .key k :: rest → step s = .next { s with schedule := rest })

/-! ### The step -/

/-- A step whose next input is a word that decodes runs the instruction, with what stands beside the word and the
input taken off the schedule; before INIT a command on its own is no step (70_reset_and_hazards.md R360). The model's
reading it rests on: notes/assumptions/2.md, 9.md. -/
def Obligations.StepRunsTheDecodedWord : Prop :=
  ∀ (s : State) (w : OpWord) (b : Issue) (rest : List Input) (i : Instr),
    s.faults = [] → s.schedule = .word w b :: rest → decodeWord w = .ok i →
    ((s.initialized = true ∨ (OpWord.opcode w).toNat < 0x10) →
      step s = exec i { s with schedule := rest, issue := b }) ∧
    (s.initialized = false → 0x10 ≤ (OpWord.opcode w).toNat → step s = .next { s with schedule := rest })

/-- A step whose next input is a key runs the first of the key's rows whose guard holds (30_encoding.md R106, R107);
before INIT a row is no step (70_reset_and_hazards.md R360). The model's reading it rests on: notes/assumptions/2.md,
9.md. -/
def Obligations.StepRunsTheSelectedRow : Prop :=
  ∀ (s : State) (k : KeyWord) (rest : List Input),
    s.faults = [] → s.schedule = .key k :: rest →
    (∀ (before after : List Row) (r : Row), s.initialized = true → rowsOfKey k = before ++ r :: after →
      (∀ q ∈ before, guardHolds q.guard s = false) → guardHolds r.guard s = true →
      step s = exec r.instr { s with schedule := rest }) ∧
    ((s.initialized = false ∨ ∀ q ∈ rowsOfKey k, guardHolds q.guard s = false) →
      step s = .next { s with schedule := rest })

/-- A step whose next input is another agent's is that agent's step, and with nothing scheduled nothing happens (model
conventions: notes/assumptions/2.md). -/
def Obligations.StepTakesTheAgentsTurn : Prop :=
  ∀ (s : State) (rest : List Input), s.faults = [] →
    (s.schedule = [] → step s = .next s) ∧
    (∀ a, s.schedule = .advance a :: rest → step s = .next (advanceCaller a { s with schedule := rest })) ∧
    (∀ a, s.schedule = .expire a :: rest → step s = .next (expireCaller a { s with schedule := rest })) ∧
    (∀ e, s.schedule = .env e :: rest → step s = .next (envStep e { s with schedule := rest })) ∧
    (∀ a b, s.schedule = .store a b :: rest → step s = .next (setCallerByte a b { s with schedule := rest }))

/-- After a fault no agent has a step (60_exceptions.md R323). The model's reading it rests on:
notes/assumptions/10.md. -/
def Obligations.FaultedMachineHasNoStep : Prop :=
  ∀ (s : State) (r : Fault) (more : List Fault), s.faults = r :: more → step s = .fault r

/-- The power-on state: not initialized, every buffer cell unwritten (70_reset_and_hazards.md R360). The values of the
fields the spec leaves unspecified are the model's (notes/assumptions/1.md) and are not stated here. -/
def Obligations.ResetIsPowerOn : Prop :=
  State.reset.initialized = false ∧
  (∀ i, bufRead State.reset.txBuffer i = none) ∧ (∀ i, bufRead State.reset.rxBuffer i = none) ∧
  irqEnabled State.reset = false ∧ (∀ e, envStep e State.reset = State.reset)

/-- The invariant holds at reset. -/
def Obligations.ResetHasTheInvariant : Prop := State.reset.Inv

/-- Every step keeps the invariant, from every state that has it: canonical memories of 256 cells, counts of at most
256, a DMA count within its length, a slave state that is Idle exactly when no slave is registered, the lock with the
caller past its acquire, a master that runs only for the transfer that waits for it, no callback or controller step
logged and no buffer cell written before INIT, every caller at a sub-step of each operation it is in, one inside a
second call at its sub-step 1 with the lock, its first call not between arm and wake. -/
def Obligations.StepKeepsTheInvariant : Prop :=
  ∀ s t : State, s.Inv → step s = .next t → t.Inv

/-! ### The primitive commands -/

/-- HW_START, HW_STOP, HW_STALL_EN and HW_STALL_DIS each write one control bit and log their word (40_hw_commands.md
R130 to R133). -/
def Obligations.BusConditionCommands : Prop :=
  ∀ s : State,
    exec .hwStart s =
      .next { s with hw := { s.hw with start := true }, cmdLog := s.cmdLog ++ [plainCmd 0x10000000#32] } ∧
    exec .hwStop s =
      .next { s with hw := { s.hw with stop := true }, cmdLog := s.cmdLog ++ [plainCmd 0x11000000#32] } ∧
    exec .hwStallEn s =
      .next { s with hw := { s.hw with stallEn := true }, cmdLog := s.cmdLog ++ [plainCmd 0x12000000#32] } ∧
    exec .hwStallDis s =
      .next { s with hw := { s.hw with stallEn := false }, cmdLog := s.cmdLog ++ [plainCmd 0x13000000#32] }

/-- HW_SEND_ADDR and HW_WRITE_DATA write the data register; HW_READ_DATA gives the byte the controller supplied, or some
byte, which a second read gives again, and writes nothing (40_hw_commands.md R134, R148, R149; 20_memory.md R76). -/
def Obligations.DataCommands : Prop :=
  ∀ (s : State) (b : Byte),
    exec (.hwSendAddr b) s =
      .next { s with hw := { s.hw with dataOut := b }, cmdLog := s.cmdLog ++ [plainCmd (0x14#8 ++ b ++ 0#16)] } ∧
    exec (.hwWriteData b) s =
      .next { s with hw := { s.hw with dataOut := b }, cmdLog := s.cmdLog ++ [plainCmd (0x22#8 ++ b ++ 0#16)] } ∧
    (s.hw.dataIn = some b →
      exec .hwReadData s = .next { s with cmdLog := s.cmdLog ++ [readCmd 0x23000000#32 (.byte b)] }) ∧
    (s.hw.dataIn = none →
      ∃ c : Byte,
        exec .hwReadData s = .next { s with cmdLog := s.cmdLog ++ [readCmd 0x23000000#32 (.byte c)] } ∧
        exec .hwReadData { s with cmdLog := s.cmdLog ++ [readCmd 0x23000000#32 (.byte c)] } =
          .next { s with
            cmdLog := s.cmdLog ++ [readCmd 0x23000000#32 (.byte c)] ++ [readCmd 0x23000000#32 (.byte c)] })

/-- HW_DMA_TX and HW_DMA_RX arm the DMA in their direction, from count 0 (40_hw_commands.md R135, R136). -/
def Obligations.DmaArmCommands : Prop :=
  ∀ (s : State) (n : BitVec 16), 1 ≤ n.toNat → n.toNat ≤ 256 →
    exec (.hwDmaTx n) s =
      .next { s with
        hw := { s.hw with dmaDir := .tx, dmaLen := n.toNat, dmaCount := 0, dmaActive := true },
        cmdLog := s.cmdLog ++ [plainCmd (0x15#8 ++ 0#8 ++ n)] } ∧
    exec (.hwDmaRx n) s =
      .next { s with
        hw := { s.hw with dmaDir := .rx, dmaLen := n.toNat, dmaCount := 0, dmaActive := true },
        cmdLog := s.cmdLog ++ [plainCmd (0x16#8 ++ 0#8 ++ n)] }

/-- What the model chose where the spec gives an operand no meaning: a DMA length of 0 arms an empty window and one
above 256 some length of at most 256 (notes/assumptions/7.md), a TRANSFER whose count is not its list's length has
some messages of that count (13.md), HW_SET_TIMEOUT without thresholds changes nothing (8.md). -/
def Obligations.CommandEdgesTheModelChose : Prop :=
  ∀ (s : State) (n : BitVec 16) (addr7 : Addr7),
    ((n = 0#16 ∨ 256 < n.toNat) →
      ∃ len : Nat, len ≤ 256 ∧ (n = 0#16 → len = 0) ∧
        exec (.hwDmaTx n) s =
          .next { s with
            hw := { s.hw with dmaDir := .tx, dmaLen := len, dmaCount := 0, dmaActive := true },
            cmdLog := s.cmdLog ++ [plainCmd (0x15#8 ++ 0#8 ++ n)] } ∧
        exec (.hwDmaRx n) s =
          .next { s with
            hw := { s.hw with dmaDir := .rx, dmaLen := len, dmaCount := 0, dmaActive := true },
            cmdLog := s.cmdLog ++ [plainCmd (0x16#8 ++ 0#8 ++ n)] }) ∧
    (callerFree s → s.initialized = true → s.issue.msgs.length ≠ n.toNat →
      ∃ msgs : List Message, msgs.length = n.toNat ∧
        (s.lock = .free →
          exec (.transfer addr7 n) s =
            .next (setCaller s.issue.caller (inStep .transfer 2 (.transfer addr7 msgs))
              { s with lock := .held s.issue.caller })) ∧
        (s.lock ≠ .free →
          exec (.transfer addr7 n) s =
            .next (setCaller s.issue.caller (inStep .transfer 1 (.transfer addr7 msgs)) s))) ∧
    (s.cfg.hwTimeout = none → exec .hwSetTimeout s = .next s)

/-- HW_DMA_NACK_LAST sets its mark; HW_RESET resets the transfer state and keeps the enables, the address match, the
timeout and baud configuration and the direction (40_hw_commands.md R137, R138). -/
def Obligations.NackLastAndControllerReset : Prop :=
  ∀ s : State,
    exec .hwDmaNackLast s =
      .next { s with hw := { s.hw with dmaNackLast := true }, cmdLog := s.cmdLog ++ [plainCmd 0x17000000#32] } ∧
    exec .hwReset s =
      .next { s with
        hw := { s.hw with
          start := false, stop := false, stallEn := false, ackMode := .ack,
          dmaDir := .none, dmaLen := 0, dmaCount := 0, dmaNackLast := false, dmaActive := false,
          flags := { dr := false, ber := false, nack := false, stall := false, am := false, sstop := false,
                     dmac := false, hwto := false },
          busBusy := false, dataIn := none },
        cmdLog := s.cmdLog ++ [plainCmd 0x18000000#32] }

/-- HW_CLEAR_STATUS clears every flag but DMAC, HW_CLEAR_DMA clears DMAC, HW_ACK_STATUS clears the flags of its mask
(40_hw_commands.md R139, R140, R152). -/
def Obligations.StatusClearCommands : Prop :=
  ∀ (s : State) (m : Byte),
    exec .hwClearStatus s =
      .next { s with
        hw := { s.hw with
          flags := { dr := false, ber := false, nack := false, stall := false, am := false, sstop := false,
                     dmac := s.hw.flags.dmac, hwto := false } },
        cmdLog := s.cmdLog ++ [plainCmd 0x19000000#32] } ∧
    exec .hwClearDma s =
      .next { s with
        hw := { s.hw with flags := { s.hw.flags with dmac := false } },
        cmdLog := s.cmdLog ++ [plainCmd 0x1A000000#32] } ∧
    exec (.hwAckStatus m) s =
      .next { s with
        hw := { s.hw with
          flags := { dr := s.hw.flags.dr && !m.getLsbD 0, ber := s.hw.flags.ber && !m.getLsbD 1,
                     nack := s.hw.flags.nack && !m.getLsbD 2, stall := s.hw.flags.stall && !m.getLsbD 3,
                     am := s.hw.flags.am && !m.getLsbD 4, sstop := s.hw.flags.sstop && !m.getLsbD 5,
                     dmac := s.hw.flags.dmac && !m.getLsbD 6, hwto := s.hw.flags.hwto && !m.getLsbD 7 } },
        cmdLog := s.cmdLog ++ [plainCmd (0x26#8 ++ 0#8 ++ (0#8 ++ m))] }

/-- HW_READ_STATUS, HW_READ_DMA_COUNT, HW_READ_BUSY and HW_WAIT_BUS_FREE record what they read and change nothing
else; the wait is exhausted exactly when the bus is busy (40_hw_commands.md R141, R150, R151, R156). -/
def Obligations.StatusReadCommands : Prop :=
  ∀ s : State,
    (∃ snap : Snapshot,
      exec .hwReadStatus s = .next { s with cmdLog := s.cmdLog ++ [readCmd 0x25000000#32 (.snapshot snap)] } ∧
      snap.getLsbD 0 = s.hw.flags.dr ∧ snap.getLsbD 1 = s.hw.flags.ber ∧ snap.getLsbD 2 = s.hw.flags.nack ∧
      snap.getLsbD 3 = s.hw.flags.stall ∧ snap.getLsbD 4 = s.hw.flags.am ∧ snap.getLsbD 5 = s.hw.flags.sstop ∧
      snap.getLsbD 6 = s.hw.flags.dmac ∧ snap.getLsbD 7 = s.hw.flags.hwto ∧ snap.getLsbD 8 = s.hw.xmit) ∧
    exec .hwReadDmaCount s =
      .next { s with cmdLog := s.cmdLog ++ [readCmd 0x24000000#32 (.count s.hw.dmaCount)] } ∧
    exec .hwReadBusy s = .next { s with cmdLog := s.cmdLog ++ [readCmd 0x2A000000#32 (.busy s.hw.busBusy)] } ∧
    exec .hwWaitBusFree s =
      .next { s with
        cmdLog := s.cmdLog ++
          [readCmd 0x1B000000#32 (.spins (if s.hw.busBusy then .exhausted else .free 0))] }

/-- The configuration commands write the fields their rules name (40_hw_commands.md R142 to R147, R153). -/
def Obligations.ConfigurationCommands : Prop :=
  ∀ (s : State) (b : Bool) (hold : BitVec 5) (div : BitVec 9) (hi lo : BitVec 12) (a : Addr7) (t : Thresholds),
    exec (.hwSetBaud b hold div) s =
      .next { s with
        hw := { s.hw with div := div, hold := hold, fmPlus := b },
        cmdLog := s.cmdLog ++ [plainCmd (0x1D#8 ++ (BitVec.ofBool b ++ hold ++ div ++ 0#9))] } ∧
    exec (.hwSetScl hi lo) s =
      .next { s with
        hw := { s.hw with sclHigh := hi, sclLow := lo }, cmdLog := s.cmdLog ++ [plainCmd (0x1E#8 ++ (hi ++ lo))] } ∧
    exec (.hwSetSlaveAddr b a) s =
      .next { s with
        hw := { s.hw with matchEn := b, slaveAddr := if b then some a else none },
        cmdLog := s.cmdLog ++ [plainCmd (0x1F#8 ++ (BitVec.ofBool b ++ a) ++ 0#16)] } ∧
    exec (.hwMatchIrq b) s =
      .next { s with
        hw := { s.hw with matchIrqEn := b },
        cmdLog := s.cmdLog ++ [plainCmd (0x20#8 ++ (0#7 ++ BitVec.ofBool b) ++ 0#16)] } ∧
    exec (.hwAckMode b) s =
      .next { s with
        hw := { s.hw with ackMode := if b then .nack else .ack },
        cmdLog := s.cmdLog ++ [plainCmd (0x21#8 ++ (0#7 ++ BitVec.ofBool b) ++ 0#16)] } ∧
    exec (.hwIrqEnable b) s =
      .next { s with
        hw := { s.hw with irqEn := b },
        cmdLog := s.cmdLog ++ [plainCmd (0x27#8 ++ (0#7 ++ BitVec.ofBool b) ++ 0#16)] } ∧
    (s.cfg.hwTimeout = some t →
      exec .hwSetTimeout s =
        .next { s with
          hw := { s.hw with toThresholds := t, toEn := true },
          cmdLog := s.cmdLog ++ [{ word := 0x1C000000#32, thresholds := some t, result := none }] })

/-- CLK_ENABLE and CLK_GET_RATE record the clock oracle's answer; an `ok` sets `hw.clkOn` (40_hw_commands.md R154,
R155). How the answer is supplied is the model's (notes/assumptions/5.md). -/
def Obligations.ClockCommands : Prop :=
  ∀ s : State,
    (clockAnswer s = true → exec .clkEnable s =
      .next { s with
        hw := { s.hw with clkOn := true }, cmdLog := s.cmdLog ++ [readCmd 0x28000000#32 (.clock true)],
        oracle := (usedClockAnswer s).oracle }) ∧
    (clockAnswer s = false → exec .clkEnable s =
      .next { s with
        cmdLog := s.cmdLog ++ [readCmd 0x28000000#32 (.clock false)], oracle := (usedClockAnswer s).oracle }) ∧
    exec .clkGetRate s =
      .next { s with
        cmdLog := s.cmdLog ++ [readCmd 0x29000000#32 (.rate (rateAnswer s))], oracle := (usedRateAnswer s).oracle }

/-! ### The entry points -/

/-- INIT brings the instance up (41_baud_lifecycle.md R175); the DMA fields and the empty command and result logs are
those 10_state.md R53 states of the state INIT leaves, the entries up to there, INIT's own last, standing in the boot
logs. The model's reading it rests on: notes/assumptions/3.md, 5.md, 15.md. -/
def Obligations.InitBringsTheInstanceUp : Prop :=
  ∀ (s : State) (rate : Nat) (b : BaudFields),
    callerFree s → s.initialized = false → clockAnswer s = true → rateAnswer (usedClockAnswer s) = rate →
    baud rate s.cfg.initialSpeed = some b →
    exec .init s =
      .next (setCaller s.issue.caller (returned .ok)
        { s with
          sourceClock := rate, bitrate := s.cfg.initialSpeed, masterState := .idle, slaveState := .idle,
          slaveConfig := none, readDest := none, lock := .free, completion := false, initialized := true,
          hw := { s.hw with
            clkOn := true, irqEn := true, div := b.div, hold := b.hold, fmPlus := b.fmPlus, sclHigh := b.sclHigh,
            sclLow := b.sclLow, dmaDir := .none, dmaLen := 0, dmaCount := 0, dmaNackLast := false,
            dmaActive := false },
          cmdLog := [], resultLog := [],
          bootCmdLog := s.bootCmdLog ++ (s.cmdLog ++
            [readCmd 0x28000000#32 (.clock true), readCmd 0x29000000#32 (.rate rate),
             plainCmd (encodeWord (.hwSetBaud b.fmPlus b.hold b.div)),
             plainCmd (encodeWord (.hwSetScl b.sclHigh b.sclLow)), plainCmd 0x27010000#32]),
          bootResultLog := s.bootResultLog ++
            (s.resultLog ++ [{ caller := s.issue.caller, op := .init, kind := .ok }]),
          oracle := (usedRateAnswer (usedClockAnswer s)).oracle })

/-- A failed INIT returns ClockFailed or InvalidConfig and leaves the instance uninitialized, the remaining steps not
taken; what it issued and returned is logged (41_baud_lifecycle.md R176, 10_state.md R49). The model's reading it rests
on: notes/assumptions/5.md. -/
def Obligations.FailedInitLeavesTheInstanceDown : Prop :=
  ∀ (s : State) (rate : Nat), callerFree s → s.initialized = false →
    (clockAnswer s = false →
      exec .init s =
        .next (setCaller s.issue.caller (returned .clockFailed)
          { s with
            cmdLog := s.cmdLog ++ [readCmd 0x28000000#32 (.clock false)],
            resultLog := s.resultLog ++ [{ caller := s.issue.caller, op := .init, kind := .clockFailed }],
            oracle := (usedClockAnswer s).oracle })) ∧
    (clockAnswer s = true → rateAnswer (usedClockAnswer s) = rate →
      s.cfg.initialSpeed ≠ 100000 → s.cfg.initialSpeed ≠ 400000 → s.cfg.initialSpeed ≠ 1000000 →
      exec .init s =
        .next (setCaller s.issue.caller (returned .invalidConfig)
          { s with
            sourceClock := rate, hw := { s.hw with clkOn := true },
            cmdLog := s.cmdLog ++
              [readCmd 0x28000000#32 (.clock true), readCmd 0x29000000#32 (.rate rate)],
            resultLog := s.resultLog ++ [{ caller := s.issue.caller, op := .init, kind := .invalidConfig }],
            oracle := (usedRateAnswer (usedClockAnswer s)).oracle }))

/-- Every entry point but INIT faults before a successful INIT, and a second INIT faults after one; the fault is
recorded and nothing else is done (10_state.md R36, 60_exceptions.md R323). The model's reading it rests on:
notes/assumptions/10.md, 13.md. -/
def Obligations.MisplacedEntryPointsFault : Prop :=
  ∀ (s : State) (addr10 isNull : Bool) (cls : BitVec 4) (addr7 : Addr7) (n : BitVec 16), callerFree s →
    (s.initialized = true →
      exec .init s =
        .next (setCaller s.issue.caller (inStep .init 1 .none) { s with faults := s.faults ++ [.doubleInit] })) ∧
    (s.initialized = false →
      exec (.configure addr10 cls) s =
        .next (setCaller s.issue.caller (inStep .configure 1 (.configure addr10 cls))
          { s with faults := s.faults ++ [.notInitialized] }) ∧
      exec (.transfer addr7 n) s =
        .next (setCaller s.issue.caller (inStep .transfer 1 (.transfer addr7 (transferMessages n s.issue.msgs)))
          { s with faults := s.faults ++ [.notInitialized] }) ∧
      exec (.slaveRegister addr10 addr7 isNull) s =
        .next (setCaller s.issue.caller
          (inStep .slaveRegister 1
            (.register (if isNull then none
                        else some { addr7 := addr7, addr10 := addr10, cb := s.issue.callbacks })))
          { s with faults := s.faults ++ [.notInitialized] }) ∧
      exec .slaveUnregister s =
        .next (setCaller s.issue.caller (inStep .slaveUnregister 1 .none)
          { s with faults := s.faults ++ [.notInitialized] }))

/-- CONFIGURE: a fault before a successful INIT; Unsupported for another class or 10-bit addressing, writing
nothing; a fault while something is in flight; else the class's baud fields are programmed (41_baud_lifecycle.md
R177). The model's reading it rests on: notes/assumptions/10.md. -/
def Obligations.ConfigureOutcomes : Prop :=
  ∀ (s : State) (cls : BitVec 4), callerFree s →
    (∀ addr10, s.initialized = false →
      exec (.configure addr10 cls) s =
        .next (setCaller s.issue.caller (inStep .configure 1 (.configure addr10 cls))
          { s with faults := s.faults ++ [.notInitialized] })) ∧
    (s.initialized = true →
      (∀ addr10, (addr10 = true ∨ 3 ≤ cls.toNat) →
        exec (.configure addr10 cls) s =
          .next (setCaller s.issue.caller (returned .unsupported)
            { s with resultLog := s.resultLog ++
                [{ caller := s.issue.caller, op := .configure, kind := .unsupported }] })) ∧
      (cls.toNat < 3 →
        (s.lock ≠ .free ∨ s.masterState ≠ .idle ∨ s.slaveState = .write ∨ s.slaveState = .read ∨
          s.slaveState = .quick) →
        exec (.configure false cls) s =
          .next (setCaller s.issue.caller (inStep .configure 1 (.configure false cls))
            { s with faults := s.faults ++ [.configureWhileBusy] })) ∧
      (∀ f : Nat, (cls = 0#4 ∧ f = 100000 ∨ cls = 1#4 ∧ f = 400000 ∨ cls = 2#4 ∧ f = 1000000) →
        s.lock = .free → s.masterState = .idle → (s.slaveState = .idle ∨ s.slaveState = .start) →
        ∃ b, baud s.sourceClock f = some b ∧
          exec (.configure false cls) s =
            .next (setCaller s.issue.caller (returned .ok)
              { s with
                bitrate := f,
                hw := { s.hw with
                  div := b.div, hold := b.hold, fmPlus := b.fmPlus, sclHigh := b.sclHigh, sclLow := b.sclLow },
                cmdLog := s.cmdLog ++
                  [plainCmd (encodeWord (.hwSetBaud b.fmPlus b.hold b.div)),
                   plainCmd (encodeWord (.hwSetScl b.sclHigh b.sclLow))],
                resultLog := s.resultLog ++ [{ caller := s.issue.caller, op := .configure, kind := .ok }] })))

/-- TRANSFER, step 1: the caller takes a free lock and stands at step 2, or waits at step 1; nothing else changes
(42_master_caller.md R190, R192). -/
def Obligations.TransferTakesTheLockOrWaits : Prop :=
  ∀ (s : State) (addr7 : Addr7) (n : BitVec 16),
    callerFree s → s.initialized = true → s.issue.msgs.length = n.toNat →
    (s.lock = .free →
      exec (.transfer addr7 n) s =
        .next (setCaller s.issue.caller (inStep .transfer 2 (.transfer addr7 s.issue.msgs))
          { s with lock := .held s.issue.caller })) ∧
    (s.lock ≠ .free →
      exec (.transfer addr7 n) s =
        .next (setCaller s.issue.caller (inStep .transfer 1 (.transfer addr7 s.issue.msgs)) s))

/-- SLAVE_REGISTER, step 1: a null or 10-bit configuration returns InvalidConfig without lock or command; any other
takes the lock or waits. SLAVE_UNREGISTER, step 1: InvalidState without a slave, Busy while the master runs, both without the
lock; else it takes the lock or waits (44_slave_engine.md R262, R263). -/
def Obligations.RegistrationChecksThenLocks : Prop :=
  (∀ (s : State) (addr10 isNull : Bool) (addr7 : Addr7), callerFree s → s.initialized = true →
      ((isNull = true ∨ addr10 = true) →
        exec (.slaveRegister addr10 addr7 isNull) s =
          .next (setCaller s.issue.caller (returned .invalidConfig)
            { s with resultLog := s.resultLog ++
                [{ caller := s.issue.caller, op := .slaveRegister, kind := .invalidConfig }] })) ∧
      (s.lock = .free →
        exec (.slaveRegister false addr7 false) s =
          .next (setCaller s.issue.caller
            (inStep .slaveRegister 2 (.register (some { addr7 := addr7, addr10 := false, cb := s.issue.callbacks })))
            { s with lock := .held s.issue.caller })) ∧
      (s.lock ≠ .free →
        exec (.slaveRegister false addr7 false) s =
          .next (setCaller s.issue.caller
            (inStep .slaveRegister 1 (.register (some { addr7 := addr7, addr10 := false, cb := s.issue.callbacks })))
            s))) ∧
  (∀ s : State, callerFree s → s.initialized = true →
      (s.slaveConfig = none →
        exec .slaveUnregister s =
          .next (setCaller s.issue.caller (returned .invalidState)
            { s with resultLog := s.resultLog ++
                [{ caller := s.issue.caller, op := .slaveUnregister, kind := .invalidState }] })) ∧
      (s.slaveConfig ≠ none → s.masterState ≠ .idle →
        exec .slaveUnregister s =
          .next (setCaller s.issue.caller (returned .busy)
            { s with resultLog := s.resultLog ++
                [{ caller := s.issue.caller, op := .slaveUnregister, kind := .busy }] })) ∧
      (s.slaveConfig ≠ none → s.masterState = .idle → s.lock = .free →
        exec .slaveUnregister s =
          .next (setCaller s.issue.caller (inStep .slaveUnregister 2 .none)
            { s with lock := .held s.issue.caller })) ∧
      (s.slaveConfig ≠ none → s.masterState = .idle → s.lock ≠ .free →
        exec .slaveUnregister s = .next (setCaller s.issue.caller (inStep .slaveUnregister 1 .none) s)))

/-- What the model calls no step leaves the state as it is: a second call by a caller inside an operation that does not
hold the lock or is between the arm and the wake of its transfer (42_master_caller.md R194), a third call, an IRQ that
is not enabled, a handler row that is not routed to or does not fire, a controller action whose condition does not hold
(model conventions: notes/assumptions/2.md, 9.md, 14.md, 18.md). -/
def Obligations.DisabledInputsChangeNothing : Prop :=
  ∀ s : State,
    ((getCaller s s.issue.caller).op ≠ none →
      (s.lock ≠ .held s.issue.caller ∨ (getCaller s s.issue.caller).outer ≠ none ∨
        ((getCaller s s.issue.caller).op = some .transfer ∧ (getCaller s s.issue.caller).pc = 5)) →
      exec .init s = .next s ∧ (∀ addr10 cls, exec (.configure addr10 cls) s = .next s) ∧
      (∀ addr7 n, exec (.transfer addr7 n) s = .next s) ∧
      (∀ addr10 addr7 isNull, exec (.slaveRegister addr10 addr7 isNull) s = .next s) ∧
      exec .slaveUnregister s = .next s) ∧
    ((s.initialized = false ∨ irqPending s = false) → exec .irq s = .next s) ∧
    (∀ (i : Instr) (r : Row), rowOf? i = some r →
      (routedTo r.role s = false ∨ rowFires r (r.keyMatch.extractLsb' 0 9) s = false) → exec i s = .next s) ∧
    (∀ e, (s.initialized = false ∨ envEnabled s.hw e = false) → envStep e s = s)

/-! ### The callers' later sub-steps -/

/-- The lock wait: the caller acquires a free lock, whose wait never expires; while the lock is held, by another caller
or by itself, it goes on waiting or its expiry returns Busy (42_master_caller.md R190). The record keeps the operation
that the call interrupted, if any, and an expiry goes back to it (notes/assumptions/18.md). -/
def Obligations.LockWaitAcquiresOrExpires : Prop :=
  ∀ (s : State) (a : Nat) (op : EntryPoint) (args : CallArgs) (outer : Option Frame),
    getCaller s a = { inStep op 1 args with outer := outer } →
    (op = .transfer ∨ op = .slaveRegister ∨ op = .slaveUnregister) →
    (s.lock = .free →
      advanceCaller a s = setCaller a { inStep op 2 args with outer := outer } { s with lock := .held a } ∧
      expireCaller a s = s) ∧
    (s.lock ≠ .free →
      advanceCaller a s = s ∧
      expireCaller a s =
        setCaller a (afterReturn outer .busy)
          { s with resultLog := s.resultLog ++ [{ caller := a, op := op, kind := .busy }] })

/-- A caller that holds the lock, not between the arm and the wake of its transfer, and calls an entry point that
acquires it waits on itself, its first operation interrupted; the wait leaves only by its expiry, which returns Busy and
goes on with the first operation (42_master_caller.md R190). The model's reading it rests on: notes/assumptions/18.md. -/
def Obligations.SecondCallWaitsOnItself : Prop :=
  ∀ (s : State) (i : Instr) (f : Frame) (op : EntryPoint) (args : CallArgs),
    atStep s s.issue.caller f.op f.pc f.args → ¬(f.op = .transfer ∧ f.pc = 5) →
    s.lock = .held s.issue.caller → s.initialized = true →
    ((∃ addr7 n, i = .transfer addr7 n ∧ op = .transfer ∧ args = .transfer addr7 s.issue.msgs ∧
        s.issue.msgs.length = n.toNat) ∨
      (∃ addr7, i = .slaveRegister false addr7 false ∧ op = .slaveRegister ∧
        args = .register (some { addr7 := addr7, addr10 := false, cb := s.issue.callbacks })) ∨
      (i = .slaveUnregister ∧ op = .slaveUnregister ∧ args = .none ∧ s.slaveConfig ≠ none ∧ s.masterState = .idle)) →
    ∃ t, exec i s = .next t ∧
      t = setCaller s.issue.caller { op := some op, pc := 1, args := args, result := none, outer := some f } s ∧
      advanceCaller s.issue.caller t = t ∧
      expireCaller s.issue.caller t =
        setCaller s.issue.caller (inStep f.op f.pc f.args)
          { s with resultLog := s.resultLog ++ [{ caller := s.issue.caller, op := op, kind := .busy }] }

/-- TRANSFER, steps 2 and 3: the write segment goes into the transmit buffer from cell 0, the counts, the
destination and the address are written, bit 0 of it from a Quick Command's direction; an unsupported list writes
none of them and releases the lock (42_master_caller.md R192, R200, R202). The model's reading it rests on:
notes/assumptions/4.md. -/
def Obligations.TransferFillsTheInstance : Prop :=
  ∀ (s : State) (a : Nat) (addr7 : Addr7) (msgs : List Message),
    atStep s a .transfer 2 (.transfer addr7 msgs) →
    (∀ (tx : List Byte) (n : Nat) (d : Option ReadDest), combine s msgs = some (tx, n, d) →
      ∃ buf : List Host.Cell,
        advanceCaller a s =
          setCaller a (inStep .transfer 4 (.transfer addr7 msgs))
            { s with
              txBuffer := buf, txCount := tx.length, rxCount := n, readDest := d,
              deviceAddress :=
                if tx.length = 0 ∧ n = 0 ∧ msgs.length = 1 ∧ (∃ m ∈ msgs, m.dir = .read) then addr7 ++ 1#1
                else addr7 ++ 0#1 } ∧
        ∀ i, bufRead buf i = if i < tx.length then tx[i]? else bufRead s.txBuffer i) ∧
    (combine s msgs = none →
      advanceCaller a s =
        setCaller a (returned .unsupported)
          { s with
            lock := .free,
            resultLog := s.resultLog ++ [{ caller := a, op := .transfer, kind := .unsupported }] })

/-- `combine` accepts nothing, one write, one read, or one write and then one read, each of at most 256 bytes, when
adjacent writes are not joined; with `concatAdjacentWrites` it joins any run of writes, of at most 256 bytes together,
before at most one read. Whatever follows a read is refused. Byte `i` of a message is the caller's byte `buf + i`
(42_master_caller.md R199, R201; that a
buffer is an address of the callers' flat memory is the model's). The model's reading it rests on:
notes/assumptions/4.md. -/
def Obligations.CombineAcceptsTheShapes : Prop :=
  ∀ (s : State) (msgs : List Message),
    (s.cfg.concatAdjacentWrites = false →
      combine s msgs =
        match msgs with
        | [] => some ([], 0, none)
        | [m] =>
          if 256 < m.len then none
          else if m.dir = .write then some (messageBytes s m, 0, none)
          else some ([], m.len, some { buf := m.buf, len := m.len })
        | [m, r] =>
          if m.dir = .write ∧ r.dir = .read ∧ m.len ≤ 256 ∧ r.len ≤ 256 then
            some (messageBytes s m, r.len, some { buf := r.buf, len := r.len })
          else none
        | _ => none) ∧
    (s.cfg.concatAdjacentWrites = true → (∀ m ∈ msgs, m.dir = .write) →
      combine s msgs =
          (if 256 < (msgs.map Message.len).sum then none else some (msgs.flatMap (messageBytes s), 0, none)) ∧
        ∀ r : Message, r.dir = .read →
          combine s (msgs ++ [r]) =
            if 256 < (msgs.map Message.len).sum ∨ 256 < r.len then none
            else some (msgs.flatMap (messageBytes s), r.len, some { buf := r.buf, len := r.len })) ∧
    (∀ (before after : List Message) (r : Message),
      msgs = before ++ r :: after → r.dir = .read → after ≠ [] → combine s msgs = none) ∧
    (∀ m : Message, (messageBytes s m).length = m.len ∧
      ∀ i, i < m.len → (messageBytes s m)[i]? = some (callerByte s (m.buf + i)))

/-- TRANSFER, step 4: the completion is reset, the thresholds are programmed where there are any, the master moves to
Start and the start is asserted (42_master_caller.md R193). -/
def Obligations.ArmStartsTheTransaction : Prop :=
  ∀ (s : State) (a : Nat) (args : CallArgs), atStep s a .transfer 4 args →
    (s.cfg.hwTimeout = none →
      advanceCaller a s =
        setCaller a (inStep .transfer 5 args)
          { s with
            completion := false, masterState := .start, hw := { s.hw with start := true },
            cmdLog := s.cmdLog ++ [plainCmd 0x10000000#32] }) ∧
    (∀ t, s.cfg.hwTimeout = some t →
      advanceCaller a s =
        setCaller a (inStep .transfer 5 args)
          { s with
            completion := false, masterState := .start,
            hw := { s.hw with toThresholds := t, toEn := true, start := true },
            cmdLog := s.cmdLog ++
              [{ word := 0x1C000000#32, thresholds := some t, result := none }, plainCmd 0x10000000#32] })

/-- TRANSFER, step 5: a signalled completion wakes the caller, which consumes it, and cannot expire; an unsignalled one
keeps it waiting, and its expiry resets the controller, makes the master Idle and records Timeout. The caller has no
other step there: a call of it changes nothing (42_master_caller.md R194, R195). -/
def Obligations.TransferWakesOrExpires : Prop :=
  ∀ (s : State) (a : Nat) (args : CallArgs), atStep s a .transfer 5 args →
    (s.completion = true →
      advanceCaller a s = setCaller a (inStep .transfer 6 args) { s with completion := false } ∧
      expireCaller a s = s) ∧
    (s.completion = false →
      advanceCaller a s = s ∧
      expireCaller a s =
        setCaller a (inStep .transfer 6 args)
          { s with
            masterState := .idle, errorCode := .timeout,
            hw := { s.hw with
              start := false, stop := false, stallEn := false, ackMode := .ack, dmaDir := .none, dmaLen := 0,
              dmaCount := 0, dmaNackLast := false, dmaActive := false, flags := Flags.clear, busBusy := false,
              dataIn := none },
            cmdLog := s.cmdLog ++ [plainCmd 0x18000000#32] }) ∧
    (s.issue.caller = a →
      exec .init s = .next s ∧ (∀ addr10 cls, exec (.configure addr10 cls) s = .next s) ∧
      (∀ addr7 n, exec (.transfer addr7 n) s = .next s) ∧
      (∀ addr10 addr7 isNull, exec (.slaveRegister addr10 addr7 isNull) s = .next s) ∧
      exec .slaveUnregister s = .next s)

/-- TRANSFER, step 6: on OK the received bytes go into the caller's buffer and every other byte of its memory reads
as before; otherwise nothing is copied; at the first unwritten cell it faults, the bytes below it copied and every other
byte as before (42_master_caller.md R196, 60_exceptions.md R323). The model's reading it rests on:
notes/assumptions/4.md, 10.md, 17.md. -/
def Obligations.CopyOutDeliversTheBytes : Prop :=
  ∀ (s : State) (a : Nat) (args : CallArgs), atStep s a .transfer 6 args →
    (∀ (d : ReadDest) (bytes : List Byte), s.errorCode = .ok → s.readDest = some d →
      Memory.wf callerUnlisted s.callerMem → bytes.length = s.rxCount →
      (∀ i, i < bytes.length → bufRead s.rxBuffer i = bytes[i]?) →
      ∃ mem, advanceCaller a s = setCaller a (inStep .transfer 7 args) { s with callerMem := mem } ∧
        ∀ x, some (callerByte { s with callerMem := mem } x) =
          if d.buf ≤ x ∧ x < d.buf + bytes.length then bytes[x - d.buf]? else some (callerByte s x)) ∧
    ((s.errorCode ≠ .ok ∨ s.readDest = none) →
      advanceCaller a s = setCaller a (inStep .transfer 7 args) s) ∧
    (∀ (d : ReadDest) (bytes : List Byte), s.errorCode = .ok → s.readDest = some d →
      Memory.wf callerUnlisted s.callerMem → bytes.length < s.rxCount →
      (∀ i, i < bytes.length → bufRead s.rxBuffer i = bytes[i]?) → bufRead s.rxBuffer bytes.length = none →
      ∃ mem, advanceCaller a s = { s with callerMem := mem, faults := s.faults ++ [.unwrittenBufferRead] } ∧
        ∀ x, some (callerByte { s with callerMem := mem } x) =
          if d.buf ≤ x ∧ x < d.buf + bytes.length then bytes[x - d.buf]? else some (callerByte s x))

/-- TRANSFER, step 7: the destination is forgotten, the lock released, the recorded error code returned and logged
(42_master_caller.md R198). -/
def Obligations.TransferReturnsTheErrorCode : Prop :=
  ∀ (s : State) (a : Nat) (args : CallArgs), atStep s a .transfer 7 args →
    advanceCaller a s =
      setCaller a (returned s.errorCode)
        { s with
          readDest := none, lock := .free,
          resultLog := s.resultLog ++ [{ caller := a, op := .transfer, kind := s.errorCode }] }

/-- SLAVE_REGISTER, step 2: Busy when a slave is registered, else the slave is armed. SLAVE_UNREGISTER, step 2:
InvalidState, Busy, or the slave is disarmed (44_slave_engine.md R262, R263). -/
def Obligations.RegistrationArmsAndDisarms : Prop :=
  (∀ (s : State) (a : Nat) (cfg : SlaveConfig), atStep s a .slaveRegister 2 (.register (some cfg)) →
      (s.slaveConfig ≠ none →
        advanceCaller a s =
          setCaller a (returned .busy)
            { s with
              lock := .free,
              resultLog := s.resultLog ++ [{ caller := a, op := .slaveRegister, kind := .busy }] }) ∧
      (s.slaveConfig = none →
        advanceCaller a s =
          setCaller a (returned .ok)
            { s with
              slaveConfig := some cfg, slaveState := .start, lock := .free,
              hw := { s.hw with matchEn := true, slaveAddr := some cfg.addr7, matchIrqEn := true },
              cmdLog := s.cmdLog ++
                [plainCmd (0x1F#8 ++ (1#1 ++ cfg.addr7) ++ 0#16), plainCmd 0x20010000#32],
              resultLog := s.resultLog ++ [{ caller := a, op := .slaveRegister, kind := .ok }] })) ∧
  (∀ (s : State) (a : Nat) (args : CallArgs), atStep s a .slaveUnregister 2 args →
      (s.slaveConfig = none →
        advanceCaller a s =
          setCaller a (returned .invalidState)
            { s with
              lock := .free,
              resultLog := s.resultLog ++ [{ caller := a, op := .slaveUnregister, kind := .invalidState }] }) ∧
      (s.slaveConfig ≠ none →
        (s.masterState ≠ .idle ∨ s.slaveState = .write ∨ s.slaveState = .read ∨ s.slaveState = .quick) →
        advanceCaller a s =
          setCaller a (returned .busy)
            { s with
              lock := .free,
              resultLog := s.resultLog ++ [{ caller := a, op := .slaveUnregister, kind := .busy }] }) ∧
      (s.slaveConfig ≠ none → s.masterState = .idle → (s.slaveState = .idle ∨ s.slaveState = .start) →
        advanceCaller a s =
          setCaller a (returned .ok)
            { s with
              slaveConfig := none, slaveState := .idle, lock := .free,
              hw := { s.hw with matchEn := false, slaveAddr := none, matchIrqEn := false, flags := Flags.clear },
              cmdLog := s.cmdLog ++ [plainCmd 0x1F000000#32, plainCmd 0x20000000#32, plainCmd 0x260000FF#32],
              resultLog := s.resultLog ++ [{ caller := a, op := .slaveUnregister, kind := .ok }] }))

/-! ### The interrupt -/

/-- An interrupt that neither engine takes: the spurious guard clears every flag, and no interrupt is pending after it
(45_dispatcher.md R314). -/
def Obligations.SpuriousInterruptClearsTheFlags : Prop :=
  ∀ s : State, irqReady s → s.masterState = .idle → (s.slaveConfig = none ∨ s.slaveState = .idle) →
    ∃ t, exec .irq s = .next t ∧ irqPending t = false ∧
      t = { s with
        hw := { s.hw with flags := Flags.clear },
        cmdLog := s.cmdLog ++ [readCmd 0x25000000#32 (.snapshot (snapshot s)), plainCmd 0x260000FF#32] }

/-- An interrupt with one flag set, for which a row fires, takes the snapshot, runs the row as the row's own
instruction runs, and acknowledges exactly that flag (45_dispatcher.md R310, R312, R313). The model's reading it
rests on: notes/assumptions/9.md. -/
def Obligations.InterruptRunsTheFiringRow : Prop :=
  ∀ (s u : State) (f : Flag) (i : Instr) (r : Row),
    irqReady s → s.hw.flags = Flags.set f Flags.clear → rowOf? i = some r → routedTo r.role s = true →
    rowFires r (snapshot s) s = true →
    exec i { s with cmdLog := s.cmdLog ++ [readCmd 0x25000000#32 (.snapshot (snapshot s))] } = .next u →
    u.faults = s.faults →
    exec .irq s =
      .next { u with
        hw := { u.hw with flags := Flags.clear },
        cmdLog := u.cmdLog ++ [plainCmd (0x26#8 ++ 0#8 ++ (0#8 ++ flagMask (snapshot s)))] }

/-- An interrupt the master engine takes completes with every flag of it acknowledged, and touches nothing of the
slave (its address match, match interrupt and direction among it), the buffers, the callers or the lock: slave events in
it are lost (43_master_engine.md R223, 45_dispatcher.md R313, 10_state.md R41). -/
def Obligations.MasterInterruptKeepsTheSlaveSide : Prop :=
  ∀ s : State, irqReady s → s.masterState ≠ .idle →
    ∃ t, exec .irq s = .next t ∧ t.hw.flags = Flags.clear ∧ irqPending t = false ∧ t.hw.irqEn = s.hw.irqEn ∧
      t.hw.matchEn = s.hw.matchEn ∧ t.hw.slaveAddr = s.hw.slaveAddr ∧ t.hw.matchIrqEn = s.hw.matchIrqEn ∧
      t.hw.xmit = s.hw.xmit ∧
      t = { s with
        masterState := t.masterState, rxCount := t.rxCount, errorCode := t.errorCode, completion := t.completion,
        hw := t.hw, cmdLog := t.cmdLog }

/-- An interrupt the slave engine takes completes and touches nothing of the master: not its state, error code or
completion, not the receive buffer or its count, not the callers or the lock; the address match stays armed, and the
transmit buffer and its count stay unless the snapshot has AM with the transmit direction. Unless a callback's violation
or an unwritten cell stops it at a fault, every flag of it is acknowledged (44_slave_engine.md R266, R267,
45_dispatcher.md R310, R313). The model's reading it rests on: notes/assumptions/5.md, 10.md. -/
def Obligations.SlaveInterruptKeepsTheMasterSide : Prop :=
  ∀ s : State, irqReady s → slaveActive s →
    ∃ t, exec .irq s = .next t ∧ t.slaveState ≠ .idle ∧ t.hw.irqEn = s.hw.irqEn ∧
      t.hw.matchEn = s.hw.matchEn ∧ t.hw.slaveAddr = s.hw.slaveAddr ∧ t.hw.matchIrqEn = s.hw.matchIrqEn ∧
      t.hw.xmit = s.hw.xmit ∧
      ((s.hw.flags.am && s.hw.xmit) = false → t.txBuffer = s.txBuffer ∧ t.txCount = s.txCount) ∧
      ((t.faults = s.faults ∧ t.hw.flags = Flags.clear ∧ irqPending t = false) ∨
        t.faults = s.faults ++ [.callbackReentry] ∨ t.faults = s.faults ++ [.unwrittenBufferRead]) ∧
      t = { s with
        slaveState := t.slaveState, txBuffer := t.txBuffer, txCount := t.txCount, slaveErrors := t.slaveErrors,
        faults := t.faults, hw := t.hw, cmdLog := t.cmdLog, cbLog := t.cbLog, oracle := t.oracle }

/-- The master's error events report by priority, whatever else is set: HWTO where the timeout is enabled, then NACK,
then BER; each leaves the master Idle with the completion signalled (60_exceptions.md R328; 43_master_engine.md R225 to
R227). -/
def Obligations.MasterReportsTheFirstError : Prop :=
  ∀ s : State, irqReady s → s.masterState ≠ .idle →
    let read := readCmd 0x25000000#32 (.snapshot (snapshot s))
    let ack := plainCmd (0x26#8 ++ 0#8 ++ (0#8 ++ flagMask (snapshot s)))
    let aborted := [plainCmd 0x11000000#32, plainCmd 0x19000000#32,
      readCmd 0x1B000000#32 (.spins (if s.hw.busBusy then .exhausted else .free 0)), plainCmd 0x1A000000#32]
    (s.hw.flags.hwto = true → s.cfg.hwTimeout ≠ none →
      ∃ t, exec .irq s = .next t ∧ t.masterState = .idle ∧ t.errorCode = .timeout ∧ t.completion = true ∧
        t.cmdLog = s.cmdLog ++ [read, plainCmd 0x18000000#32, ack]) ∧
    ((s.hw.flags.hwto = false ∨ s.cfg.hwTimeout = none) → s.hw.flags.nack = true →
      ∃ t, exec .irq s = .next t ∧ t.masterState = .idle ∧ t.errorCode = .noAck ∧ t.completion = true ∧
        t.cmdLog = s.cmdLog ++ [read] ++ aborted ++ [ack]) ∧
    ((s.hw.flags.hwto = false ∨ s.cfg.hwTimeout = none) → s.hw.flags.nack = false → s.hw.flags.ber = true →
      ∃ t, exec .irq s = .next t ∧ t.masterState = .idle ∧ t.errorCode = .busError ∧ t.completion = true ∧
        t.cmdLog = s.cmdLog ++ [read] ++ aborted ++ [plainCmd 0x18000000#32, ack])

/-- The slave's events are taken in the order of its groups: HWTO where the timeout is enabled, then BER, each reporting
and ending the invocation whatever else is set; DMAC before SSTOP; AM before DR, which then finds the armed receive
(60_exceptions.md R328; 44_slave_engine.md R265, R270 to R272, R274, R277, R279; 70_reset_and_hazards.md R371 (d)). The
model's reading it rests on: notes/assumptions/5.md. -/
def Obligations.SlaveTakesItsEventsInOrder : Prop :=
  ∀ s : State, irqReady s → slaveActive s →
    let read := readCmd 0x25000000#32 (.snapshot (snapshot s))
    let ack := plainCmd (0x26#8 ++ 0#8 ++ (0#8 ++ flagMask (snapshot s)))
    (s.hw.flags.hwto = true → s.cfg.hwTimeout ≠ none →
      exec .irq s =
        .next { s with
          slaveState := .start, slaveErrors := s.slaveErrors ++ [.slaveTimeout], hw := resetHw s.hw,
          cmdLog := s.cmdLog ++ [read, plainCmd 0x18000000#32, ack] }) ∧
    ((s.hw.flags.hwto = false ∨ s.cfg.hwTimeout = none) → s.hw.flags.ber = true →
      exec .irq s =
        .next { s with
          slaveState := .start,
          slaveErrors := if s.slaveState = .quick then s.slaveErrors else s.slaveErrors ++ [.slaveBusError],
          hw := resetHw s.hw, cmdLog := s.cmdLog ++ [read, plainCmd 0x18000000#32, ack] }) ∧
    ((s.hw.flags.hwto = false ∨ s.cfg.hwTimeout = none) → s.hw.flags.ber = false → s.hw.flags.dmac = true →
      s.hw.flags.am = false → s.hw.flags.dr = false → s.hw.flags.sstop = true → s.slaveState = .write →
      ∀ (bytes : List Byte) (acks : List (Nat × Byte)) (st : Nat) (b : Byte) (q : List CallbackAnswer),
        receivedBytes s bytes → acks.length = bytes.length →
        s.oracle.answerQ = valueAnswers acks ++ CallbackAnswer.value st b :: q →
        exec .irq s =
          .next { s with
            slaveState := .start,
            hw := { s.hw with
              ackMode := if s.hw.dmaCount = 256 then .nack else s.hw.ackMode, flags := Flags.clear },
            cmdLog := s.cmdLog ++ [read, readCmd 0x24000000#32 (.count s.hw.dmaCount)] ++
              (if s.hw.dmaCount = 256 then [plainCmd 0x21010000#32] else []) ++
              [readCmd 0x24000000#32 (.count s.hw.dmaCount), ack],
            cbLog := s.cbLog ++ receivedEntries bytes acks ++ [{ call := .stop, answer := .done }],
            oracle := { s.oracle with answerQ := q } }) ∧
    ((s.hw.flags.hwto = false ∨ s.cfg.hwTimeout = none) → s.hw.flags.ber = false → s.hw.flags.dmac = false →
      s.hw.flags.am = true → s.hw.xmit = false → s.hw.flags.dr = true → s.hw.flags.sstop = false →
      ∀ (st st' : Nat) (b b' : Byte) (q : List CallbackAnswer),
        s.oracle.answerQ = .value st b :: .value st' b' :: q →
        ∃ c : Byte, (∀ d, s.hw.dataIn = some d → c = d) ∧
          exec .irq s =
            .next { s with
              slaveState := .start,
              hw := { s.hw with
                ackMode := .ack, dmaDir := .rx, dmaLen := 256, dmaCount := 0, dmaActive := true,
                flags := Flags.clear },
              cmdLog := s.cmdLog ++
                [read, plainCmd 0x21000000#32, plainCmd 0x16000100#32, readCmd 0x24000000#32 (.count 0),
                 readCmd 0x23000000#32 (.byte c), ack],
              cbLog := s.cbLog ++ [{ call := .writeRequested, answer := .done }, receivedEntry c st'],
              oracle := { s.oracle with answerQ := q } })

/-- A master invocation signals the completion exactly when it makes the master Idle, with one of the four results of
the engine; otherwise it writes no result (43_master_engine.md R221, 42_master_caller.md R197). -/
def Obligations.MasterSignalsExactlyWhenItEnds : Prop :=
  ∀ s t : State, irqReady s → s.masterState ≠ .idle → s.completion = false → exec .irq s = .next t →
    (t.completion = true ↔ t.masterState = .idle) ∧
    (t.masterState = .idle →
      t.errorCode = .ok ∨ t.errorCode = .noAck ∨ t.errorCode = .busError ∨ t.errorCode = .timeout) ∧
    (t.masterState ≠ .idle → t.errorCode = s.errorCode)

/-! ### The handler rows, each run on its own (the model's reading of a row as an instruction: notes/assumptions/9.md) -/

/-- M_HWTO, M_NACK and M_BER (43_master_engine.md R225 to R227). The model's reading it rests on:
notes/assumptions/9.md. -/
def Obligations.MasterErrorRows : Prop :=
  ∀ s : State, s.masterState ≠ .idle →
    (s.cfg.hwTimeout ≠ none →
      exec .mHwto s =
        .next { s with
          masterState := .idle, errorCode := .timeout, completion := true, hw := resetHw s.hw,
          cmdLog := s.cmdLog ++ [plainCmd 0x18000000#32] }) ∧
    exec .mNack s =
      .next { s with
        masterState := .idle, errorCode := .noAck, completion := true,
        hw := { s.hw with stop := true, flags := Flags.clear },
        cmdLog := s.cmdLog ++
          [plainCmd 0x11000000#32, plainCmd 0x19000000#32,
           readCmd 0x1B000000#32 (.spins (if s.hw.busBusy then .exhausted else .free 0)),
           plainCmd 0x1A000000#32] } ∧
    exec .mBer s =
      .next { s with
        masterState := .idle, errorCode := .busError, completion := true, hw := resetHw s.hw,
        cmdLog := s.cmdLog ++
          [plainCmd 0x11000000#32, plainCmd 0x19000000#32,
           readCmd 0x1B000000#32 (.spins (if s.hw.busBusy then .exhausted else .free 0)),
           plainCmd 0x1A000000#32, plainCmd 0x18000000#32] }

/-- M_DR_START_QUICK, M_DR_START_READ and M_DR_START_WRITE (43_master_engine.md R228 to R230). The model's reading
it rests on: notes/assumptions/9.md. -/
def Obligations.MasterAddressRows : Prop :=
  ∀ s : State, s.masterState = .start →
    (s.txCount = 0 → s.rxCount = 0 →
      exec .mDrStartQuick s =
        .next { s with
          masterState := .quick, hw := { s.hw with stallEn := true, dataOut := s.deviceAddress },
          cmdLog := s.cmdLog ++ [plainCmd 0x12000000#32, plainCmd (0x14#8 ++ s.deviceAddress ++ 0#16)] }) ∧
    (s.txCount = 0 → 0 < s.rxCount →
      exec .mDrStartRead s =
        .next { s with
          masterState := .read, hw := { s.hw with stallEn := true, dataOut := s.deviceAddress ||| 0x01#8 },
          cmdLog := s.cmdLog ++
            [plainCmd 0x12000000#32, plainCmd (0x14#8 ++ (s.deviceAddress ||| 0x01#8) ++ 0#16)] }) ∧
    (0 < s.txCount →
      exec .mDrStartWrite s =
        .next { s with
          masterState := .write, hw := { s.hw with dataOut := s.deviceAddress &&& 0xFE#8 },
          cmdLog := s.cmdLog ++ [plainCmd (0x14#8 ++ (s.deviceAddress &&& 0xFE#8) ++ 0#16)] })

/-- M_DR_WRITE and M_STALL_READ arm the DMA with the segment's count; M_STALL_QUICK, M_DMA_WRITE_STOP and M_DMA_READ end
the transaction, M_DMA_WRITE_RESTART goes on to its read segment (43_master_engine.md R231 to R236). The model's reading
it rests on: notes/assumptions/9.md. -/
def Obligations.MasterSegmentRows : Prop :=
  ∀ s : State,
    (s.masterState = .write → s.txCount ≤ 256 →
      exec .mDrWrite s =
        .next { s with
          hw := { s.hw with dmaDir := .tx, dmaLen := s.txCount, dmaCount := 0, dmaActive := true },
          cmdLog := s.cmdLog ++ [plainCmd (0x15#8 ++ 0#8 ++ BitVec.ofNat 16 s.txCount)] }) ∧
    (s.masterState = .read → s.rxCount ≤ 256 →
      exec .mStallRead s =
        .next { s with
          hw := { s.hw with
            dmaNackLast := true, dmaDir := .rx, dmaLen := s.rxCount, dmaCount := 0, dmaActive := true,
            stallEn := false },
          cmdLog := s.cmdLog ++
            [plainCmd 0x17000000#32, plainCmd (0x16#8 ++ 0#8 ++ BitVec.ofNat 16 s.rxCount),
             plainCmd 0x13000000#32] }) ∧
    (s.masterState = .quick →
      exec .mStallQuick s =
        .next { s with
          masterState := .idle, errorCode := .ok, completion := true, hw := { s.hw with stop := true },
          cmdLog := s.cmdLog ++ [plainCmd 0x11000000#32] }) ∧
    (s.masterState = .write → s.rxCount = 0 →
      exec .mDmaWriteStop s =
        .next { s with
          masterState := .idle, errorCode := .ok, completion := true, hw := { s.hw with stop := true },
          cmdLog := s.cmdLog ++ [plainCmd 0x11000000#32] }) ∧
    (s.masterState = .write → 0 < s.rxCount →
      exec .mDmaWriteRestart s =
        .next { s with
          masterState := .read,
          hw := { s.hw with stallEn := true, start := true, dataOut := s.deviceAddress ||| 0x01#8 },
          cmdLog := s.cmdLog ++
            [plainCmd 0x12000000#32, plainCmd 0x10000000#32,
             plainCmd (0x14#8 ++ (s.deviceAddress ||| 0x01#8) ++ 0#16)] }) ∧
    (s.masterState = .read →
      exec .mDmaRead s =
        .next { s with
          masterState := .idle, rxCount := s.hw.dmaCount, errorCode := .ok, completion := true,
          hw := { s.hw with stop := true },
          cmdLog := s.cmdLog ++ [plainCmd 0x11000000#32, readCmd 0x24000000#32 (.count s.hw.dmaCount)] })

/-- S_HWTO and S_BER reset the controller, return to Start and report locally, a bus error in Quick not at all
(44_slave_engine.md R270, R271). The model's reading it rests on: notes/assumptions/9.md. -/
def Obligations.SlaveErrorRows : Prop :=
  ∀ s : State, slaveActive s →
    (s.cfg.hwTimeout ≠ none →
      exec .sHwto s =
        .next { s with
          slaveState := .start, slaveErrors := s.slaveErrors ++ [.slaveTimeout], hw := resetHw s.hw,
          cmdLog := s.cmdLog ++ [plainCmd 0x18000000#32] }) ∧
    exec .sBer s =
      .next { s with
        slaveState := .start,
        slaveErrors := if s.slaveState = .quick then s.slaveErrors else s.slaveErrors ++ [.slaveBusError],
        hw := resetHw s.hw, cmdLog := s.cmdLog ++ [plainCmd 0x18000000#32] }

/-- S_DMA_RX asserts NACK on a full window, S_AM_RX arms the receive window and calls `writeRequested`, S_DR_FILL
answers 0xFF (44_slave_engine.md R272, R274, R278). The model's reading it rests on: notes/assumptions/5.md, 9.md. -/
def Obligations.SlaveReceiveRows : Prop :=
  ∀ s : State, slaveActive s →
    (s.slaveState = .write → s.hw.dmaCount = 256 →
      exec .sDmaRx s =
        .next { s with
          hw := { s.hw with ackMode := .nack },
          cmdLog := s.cmdLog ++ [readCmd 0x24000000#32 (.count 256), plainCmd 0x21010000#32] }) ∧
    (s.slaveState = .write → s.hw.dmaCount ≠ 256 →
      exec .sDmaRx s =
        .next { s with cmdLog := s.cmdLog ++ [readCmd 0x24000000#32 (.count s.hw.dmaCount)] }) ∧
    (∀ (st : Nat) (b : Byte), callbackAnswer s = .value st b →
      exec .sAmRx s =
        .next { s with
          slaveState := .write,
          hw := { s.hw with ackMode := .ack, dmaDir := .rx, dmaLen := 256, dmaCount := 0, dmaActive := true },
          cmdLog := s.cmdLog ++ [plainCmd 0x21000000#32, plainCmd 0x16000100#32],
          cbLog := s.cbLog ++ [{ call := .writeRequested, answer := .done }],
          oracle := (usedCallbackAnswer s).oracle }) ∧
    (s.slaveState ≠ .write →
      exec .sDrFill s =
        .next { s with hw := { s.hw with dataOut := 0xFF#8 }, cmdLog := s.cmdLog ++ [plainCmd 0x22FF0000#32] })

/-- S_AM_TX delivers the bytes of a receive in progress, then prefills the reply buffer with the callbacks' bytes
and arms their transmission, or goes to Quick when there are none, leaving the register block as it was
(44_slave_engine.md R273, R275, R276). The model's reading it rests on: notes/assumptions/5.md, 9.md. -/
def Obligations.SlaveTransmitPrefillsTheReply : Prop :=
  ∀ (s : State) (bytes : List Byte) (acks : List (Nat × Byte)) (replies : List Byte) (tail : List CallbackAnswer),
    slaveActive s → (s.slaveState = .write → receivedBytes s bytes) → (s.slaveState ≠ .write → bytes = []) →
    acks.length = bytes.length → replies.length ≤ 256 →
    (replies.length = 256 ∨ ∃ st b q, st ≠ 0 ∧ tail = CallbackAnswer.value st b :: q) →
    s.oracle.answerQ = valueAnswers acks ++ valueAnswers (replies.map (fun b => (0, b))) ++ tail →
    ∃ t, exec .sAmTx s = .next t ∧
      (∀ i, bufRead t.txBuffer i = if i < replies.length then replies[i]? else bufRead s.txBuffer i) ∧
      t.cbLog.map CbEntry.call =
        s.cbLog.map CbEntry.call ++ bytes.map Callback.writeReceived ++ [.readRequested] ++
          (List.range' 1 (min replies.length 255)).map Callback.readProcessed ∧
      t.cmdLog =
        s.cmdLog ++
          (if s.slaveState = .write then [readCmd 0x24000000#32 (.count s.hw.dmaCount)] else []) ++
          (if replies = [] then [] else [plainCmd (0x15#8 ++ 0#8 ++ BitVec.ofNat 16 replies.length)]) ∧
      t = { s with
        slaveState := if replies = [] then .quick else .read, txCount := replies.length,
        hw := if replies = [] then s.hw
              else { s.hw with dmaDir := .tx, dmaLen := replies.length, dmaCount := 0, dmaActive := true },
        txBuffer := t.txBuffer, cbLog := t.cbLog, cmdLog := t.cmdLog, oracle := t.oracle }

/-- S_DR_OVERFLOW delivers the buffered bytes in order and then the overflow byte, and returns to Start
(44_slave_engine.md R268, R277). The model's reading it rests on: notes/assumptions/5.md, 9.md. -/
def Obligations.SlaveOverflowDeliversEveryByte : Prop :=
  ∀ (s : State) (bytes : List Byte) (acks : List (Nat × Byte)) (q : List CallbackAnswer),
    slaveActive s → s.slaveState = .write → receivedBytes s bytes → acks.length = bytes.length + 1 →
    s.oracle.answerQ = valueAnswers acks ++ q →
    ∃ b : Byte, (∀ c, s.hw.dataIn = some c → b = c) ∧
      exec .sDrOverflow s =
        .next { s with
          slaveState := .start,
          cmdLog := s.cmdLog ++
            [readCmd 0x24000000#32 (.count s.hw.dmaCount), readCmd 0x23000000#32 (.byte b)],
          cbLog := s.cbLog ++ receivedEntries (bytes ++ [b]) acks, oracle := { s.oracle with answerQ := q } }

/-- S_STOP delivers the remaining bytes of a receive, calls `stop` once when a transaction was active, and returns
to Start (44_slave_engine.md R268, R279). The model's reading it rests on: notes/assumptions/5.md, 9.md. -/
def Obligations.SlaveStopEndsTheTransaction : Prop :=
  ∀ s : State, slaveActive s →
    (∀ (bytes : List Byte) (acks : List (Nat × Byte)) (st : Nat) (b : Byte) (q : List CallbackAnswer),
      s.slaveState = .write → receivedBytes s bytes → acks.length = bytes.length →
      s.oracle.answerQ = valueAnswers acks ++ CallbackAnswer.value st b :: q →
      exec .sStop s =
        .next { s with
          slaveState := .start,
          cmdLog := s.cmdLog ++ [readCmd 0x24000000#32 (.count s.hw.dmaCount)],
          cbLog := s.cbLog ++ receivedEntries bytes acks ++ [{ call := .stop, answer := .done }],
          oracle := { s.oracle with answerQ := q } }) ∧
    (∀ (st : Nat) (b : Byte), (s.slaveState = .read ∨ s.slaveState = .quick) → callbackAnswer s = .value st b →
      exec .sStop s =
        .next { s with
          slaveState := .start, cbLog := s.cbLog ++ [{ call := .stop, answer := .done }],
          oracle := (usedCallbackAnswer s).oracle }) ∧
    (s.slaveState = .start → exec .sStop s = .next s)

/-- What stops a slave row: a callback's `Violation` records CallbackReentry, an unwritten cell UnwrittenBufferRead;
what was done before stays. FLUSH stops S_AM_TX, S_DR_OVERFLOW and S_STOP alike; then each callback after it:
`writeRequested` in S_AM_RX, the overflow byte's `writeReceived` in S_DR_OVERFLOW, `stop` in S_STOP, `readRequested`
and `readProcessed` in S_AM_TX (44_slave_engine.md R261, R268, R273 to R275, R277, R279, 60_exceptions.md R323). The
model's reading it rests on: notes/assumptions/5.md, 9.md, 10.md. -/
def Obligations.SlaveRowsStopAtAFault : Prop :=
  ∀ s : State, slaveActive s →
    (callbackAnswer s = .violation →
      exec .sAmRx s =
        .next { s with
          slaveState := .write,
          hw := { s.hw with ackMode := .ack, dmaDir := .rx, dmaLen := 256, dmaCount := 0, dmaActive := true },
          cmdLog := s.cmdLog ++ [plainCmd 0x21000000#32, plainCmd 0x16000100#32],
          cbLog := s.cbLog ++ [{ call := .writeRequested, answer := .violation }],
          faults := s.faults ++ [.callbackReentry], oracle := (usedCallbackAnswer s).oracle }) ∧
    (∀ (i : Instr) (bytes : List Byte) (acks : List (Nat × Byte)) (q : List CallbackAnswer),
      (i = .sAmTx ∨ i = .sDrOverflow ∨ i = .sStop) →
      s.slaveState = .write → bytes.length < s.hw.dmaCount →
      (∀ k, k < bytes.length → bufRead s.rxBuffer k = bytes[k]?) → acks.length = bytes.length →
      (bufRead s.rxBuffer bytes.length = none → s.oracle.answerQ = valueAnswers acks ++ q →
        exec i s =
          .next { s with
            cmdLog := s.cmdLog ++ [readCmd 0x24000000#32 (.count s.hw.dmaCount)],
            cbLog := s.cbLog ++ receivedEntries bytes acks, faults := s.faults ++ [.unwrittenBufferRead],
            oracle := { s.oracle with answerQ := q } }) ∧
      (∀ b, bufRead s.rxBuffer bytes.length = some b →
        s.oracle.answerQ = valueAnswers acks ++ CallbackAnswer.violation :: q →
        exec i s =
          .next { s with
            cmdLog := s.cmdLog ++ [readCmd 0x24000000#32 (.count s.hw.dmaCount)],
            cbLog := s.cbLog ++ receivedEntries bytes acks ++ [{ call := .writeReceived b, answer := .violation }],
            faults := s.faults ++ [.callbackReentry], oracle := { s.oracle with answerQ := q } })) ∧
    (∀ (bytes : List Byte) (acks : List (Nat × Byte)) (q : List CallbackAnswer),
      s.slaveState = .write → receivedBytes s bytes → acks.length = bytes.length →
      s.oracle.answerQ = valueAnswers acks ++ CallbackAnswer.violation :: q →
      exec .sStop s =
        .next { s with
          cmdLog := s.cmdLog ++ [readCmd 0x24000000#32 (.count s.hw.dmaCount)],
          cbLog := s.cbLog ++ receivedEntries bytes acks ++ [{ call := .stop, answer := .violation }],
          faults := s.faults ++ [.callbackReentry], oracle := { s.oracle with answerQ := q } } ∧
      ∃ b : Byte, (∀ c, s.hw.dataIn = some c → b = c) ∧
        exec .sDrOverflow s =
          .next { s with
            cmdLog := s.cmdLog ++
              [readCmd 0x24000000#32 (.count s.hw.dmaCount), readCmd 0x23000000#32 (.byte b)],
            cbLog := s.cbLog ++ receivedEntries bytes acks ++ [{ call := .writeReceived b, answer := .violation }],
            faults := s.faults ++ [.callbackReentry], oracle := { s.oracle with answerQ := q } }) ∧
    ((s.slaveState = .read ∨ s.slaveState = .quick) → callbackAnswer s = .violation →
      exec .sStop s =
        .next { s with
          cbLog := s.cbLog ++ [{ call := .stop, answer := .violation }],
          faults := s.faults ++ [.callbackReentry], oracle := (usedCallbackAnswer s).oracle }) ∧
    (∀ (bytes : List Byte) (acks : List (Nat × Byte)) (replies : List Byte) (q : List CallbackAnswer),
      (s.slaveState = .write → receivedBytes s bytes) → (s.slaveState ≠ .write → bytes = []) →
      acks.length = bytes.length → replies.length < 256 →
      s.oracle.answerQ =
        valueAnswers acks ++ valueAnswers (replies.map (fun b => (0, b))) ++ CallbackAnswer.violation :: q →
      ∃ t, exec .sAmTx s = .next t ∧
        (∀ k, bufRead t.txBuffer k = if k < replies.length then replies[k]? else bufRead s.txBuffer k) ∧
        t.cbLog.map CbEntry.call =
          s.cbLog.map CbEntry.call ++ bytes.map Callback.writeReceived ++ [.readRequested] ++
            (List.range' 1 replies.length).map Callback.readProcessed ∧
        t = { s with
          faults := s.faults ++ [.callbackReentry],
          cmdLog := s.cmdLog ++
            (if s.slaveState = .write then [readCmd 0x24000000#32 (.count s.hw.dmaCount)] else []),
          txBuffer := t.txBuffer, cbLog := t.cbLog, oracle := { s.oracle with answerQ := q } })

/-! ### The controller agent -/

/-- The controller's actions, each where its condition holds, and what each is logged as (60_exceptions.md R331); each
is counted, for the free byte of HW_READ_DATA. The model's reading it rests on: notes/assumptions/5.md, 10.md, 14.md. -/
def Obligations.ControllerActions : Prop :=
  ∀ s : State, s.initialized = true →
    let o := { s.oracle with turns := s.oracle.turns + 1 }
    (∀ f : Flag, f ≠ .am → f ≠ .dmac → (f = .stall → s.hw.stallEn = true) → (f = .hwto → s.hw.toEn = true) →
      envStep (.raise f) s =
        { s with
          hw := { s.hw with
            flags := { s.hw.flags with
              dr := s.hw.flags.dr || decide (f = .dr), ber := s.hw.flags.ber || decide (f = .ber),
              nack := s.hw.flags.nack || decide (f = .nack), stall := s.hw.flags.stall || decide (f = .stall),
              sstop := s.hw.flags.sstop || decide (f = .sstop), hwto := s.hw.flags.hwto || decide (f = .hwto) } },
          busLog := s.busLog ++ [.raised f], oracle := o }) ∧
    (s.hw.start = true →
      envStep .finishStart s =
        { s with hw := { s.hw with start := false }, busLog := s.busLog ++ [.startDone], oracle := o }) ∧
    (s.hw.stop = true →
      envStep .finishStop s =
        { s with hw := { s.hw with stop := false }, busLog := s.busLog ++ [.stopDone], oracle := o }) ∧
    (∀ b, s.hw.dmaDir = .tx → s.hw.dmaActive = true → s.hw.dmaCount < s.hw.dmaLen →
      bufRead s.txBuffer s.hw.dmaCount = some b →
      envStep .dmaTransmit s =
        { s with hw := { s.hw with dmaCount := s.hw.dmaCount + 1 }, busLog := s.busLog ++ [.txByte b], oracle := o }) ∧
    (s.hw.dmaDir = .tx → s.hw.dmaActive = true → s.hw.dmaCount < s.hw.dmaLen →
      bufRead s.txBuffer s.hw.dmaCount = none →
      envStep .dmaTransmit s = { s with faults := s.faults ++ [.unwrittenBufferRead] }) ∧
    (∀ b, s.hw.dmaDir = .rx → s.hw.dmaActive = true → s.hw.dmaCount < s.hw.dmaLen → s.hw.dmaLen ≤ 256 →
      ∃ buf, envStep (.dmaReceive b) s =
          { s with
            rxBuffer := buf, hw := { s.hw with dmaCount := s.hw.dmaCount + 1 },
            busLog := s.busLog ++ [.rxByte b], oracle := o } ∧
        ∀ i, bufRead buf i = if i = s.hw.dmaCount then some b else bufRead s.rxBuffer i) ∧
    (∀ d, s.hw.matchEn = true →
      envStep (.addressMatch d) s =
        { s with
          hw := { s.hw with flags := { s.hw.flags with am := true }, xmit := d },
          busLog := s.busLog ++ [.matched d], oracle := o }) ∧
    (s.hw.dmaActive = true →
      envStep .dmaComplete s =
        { s with
          hw := { s.hw with flags := { s.hw.flags with dmac := true }, dmaActive := false },
          busLog := s.busLog ++ [.dmaDone], oracle := o }) ∧
    (∀ b, envStep (.receiveData b) s =
      { s with hw := { s.hw with dataIn := some b }, busLog := s.busLog ++ [.dataByte b], oracle := o }) ∧
    (∀ v, envStep (.setBusy v) s =
      { s with hw := { s.hw with busBusy := v }, busLog := s.busLog ++ [.busy v], oracle := o })

/-! ### The whole machine -/

/-- The baud calculator: only the three frequencies are accepted, the divider is the floor quotient clamped to its
path's range, the fast-mode-plus SCL counts follow the divider, and the hold time follows the source clock
(41_baud_lifecycle.md R170 to R174). -/
def Obligations.BaudFieldsAreInRange : Prop :=
  ∀ src f : Nat,
    (f ≠ 100000 → f ≠ 400000 → f ≠ 1000000 → baud src f = none) ∧
    ((f = 100000 ∨ f = 400000) →
      ∃ b, baud src f = some b ∧ b.div.toNat = min (max (src / (f * 4)) 8) 511 ∧ b.fmPlus = false ∧
        (b.sclHigh, b.sclLow) = Config.stdSclFields b.div ∧
        b.hold.toNat = if 40000000 ≤ src then 17 else if 20000000 ≤ src then 9 else 7) ∧
    (f = 1000000 →
      ∃ b, baud src f = some b ∧ b.div.toNat = min (max (src / (f * 4)) 5) 255 ∧ b.fmPlus = true ∧
        b.sclHigh.toNat + 3 = b.div.toNat ∧ b.sclLow.toNat + 1 = b.div.toNat ∧
        b.hold.toNat = if 40000000 ≤ src then 17 else if 20000000 ≤ src then 9 else 7)

/-- No step takes anything back: the callback log, the controller's log, the slave errors and the faults are only
appended to, and so are the command log and the result log after the boot logs that go before them, of which only a
successful INIT empties one into the other; an instance once initialized stays so, a buffer cell once written stays
written, and the parameters stay (10_state.md R34, R35, R49, R53; 70_reset_and_hazards.md R363). The model's reading
it rests on: notes/assumptions/15.md. -/
def Obligations.StepTakesNothingBack : Prop :=
  ∀ s t : State, step s = .next t →
    s.cbLog <+: t.cbLog ∧ s.busLog <+: t.busLog ∧
    s.bootCmdLog ++ s.cmdLog <+: t.bootCmdLog ++ t.cmdLog ∧
    s.bootResultLog ++ s.resultLog <+: t.bootResultLog ++ t.resultLog ∧
    (s.initialized = true ∨ t.initialized = false →
      s.cmdLog <+: t.cmdLog ∧ s.resultLog <+: t.resultLog ∧
      t.bootCmdLog = s.bootCmdLog ∧ t.bootResultLog = s.bootResultLog) ∧
    s.slaveErrors <+: t.slaveErrors ∧ s.faults <+: t.faults ∧
    (s.initialized = true → t.initialized = true) ∧
    (∀ i, (bufRead s.txBuffer i).isSome → (bufRead t.txBuffer i).isSome) ∧
    (∀ i, (bufRead s.rxBuffer i).isSome → (bufRead t.rxBuffer i).isSome) ∧
    t.cfg = s.cfg

/-- Only step 4 of a transfer takes the master out of Idle, and into Start; only step 2 of a registration takes the
slave out of Idle, and into Start; only step 2 of an unregistration takes an initialized instance's slave back to
Idle (43_master_engine.md R237, 44_slave_engine.md R281). The model's reading it rests on: notes/assumptions/2.md. -/
def Obligations.OnlyCallersEnterAndLeaveIdle : Prop :=
  ∀ s t : State, step s = .next t →
    (s.masterState = .idle → t.masterState ≠ .idle →
      t.masterState = .start ∧
      ∃ a rest, s.schedule = .advance a :: rest ∧ (getCaller s a).op = some .transfer ∧ (getCaller s a).pc = 4) ∧
    (s.slaveState = .idle → t.slaveState ≠ .idle →
      t.slaveState = .start ∧
      ∃ a rest, s.schedule = .advance a :: rest ∧ (getCaller s a).op = some .slaveRegister ∧
        (getCaller s a).pc = 2) ∧
    (s.initialized = true → s.slaveState ≠ .idle → t.slaveState = .idle →
      ∃ a rest, s.schedule = .advance a :: rest ∧ (getCaller s a).op = some .slaveUnregister ∧
        (getCaller s a).pc = 2)

/-- On a run in which the caller is weakly fair and from some step on makes no call while it is in an operation, every
operation of it returns, from a first state that has the invariant: each bounded wait ends by success or by its expiry
(60_exceptions.md R340). The model's reading it rests on: notes/assumptions/11.md, 18.md. -/
def Obligations.EveryCallerOperationReturns : Prop :=
  ∀ (inputs : Nat → Input) (run : Nat → State) (a : Nat),
    (run 0).Inv → isRun inputs run → fairCaller a inputs run →
    (∃ k, ∀ m w b, k ≤ m → inputs m = .word w b → b.caller = a → (getCaller (run m) a).op = none) →
    ∀ n, (getCaller (run n) a).op ≠ none → ∃ m, n < m ∧ (getCaller (run m) a).op = none
end

