-- ==== Sys2Proof/Laws/State.lean ====
section
/-! SUPPORT. The field lemmas of the basic updates: one per field and update, so that no later proof unfolds a record
update. -/

namespace Sys2Proof.Machine

variable (s : State)

section setHw
variable (f : Hw → Hw)
@[simp] theorem setHw_masterState : (setHw f s).masterState = s.masterState := rfl
@[simp] theorem setHw_slaveState : (setHw f s).slaveState = s.slaveState := rfl
@[simp] theorem setHw_txBuffer : (setHw f s).txBuffer = s.txBuffer := rfl
@[simp] theorem setHw_rxBuffer : (setHw f s).rxBuffer = s.rxBuffer := rfl
@[simp] theorem setHw_txCount : (setHw f s).txCount = s.txCount := rfl
@[simp] theorem setHw_rxCount : (setHw f s).rxCount = s.rxCount := rfl
@[simp] theorem setHw_deviceAddress : (setHw f s).deviceAddress = s.deviceAddress := rfl
@[simp] theorem setHw_errorCode : (setHw f s).errorCode = s.errorCode := rfl
@[simp] theorem setHw_slaveConfig : (setHw f s).slaveConfig = s.slaveConfig := rfl
@[simp] theorem setHw_readDest : (setHw f s).readDest = s.readDest := rfl
@[simp] theorem setHw_sourceClock : (setHw f s).sourceClock = s.sourceClock := rfl
@[simp] theorem setHw_bitrate : (setHw f s).bitrate = s.bitrate := rfl
@[simp] theorem setHw_lock : (setHw f s).lock = s.lock := rfl
@[simp] theorem setHw_completion : (setHw f s).completion = s.completion := rfl
@[simp] theorem setHw_slaveErrors : (setHw f s).slaveErrors = s.slaveErrors := rfl
@[simp] theorem setHw_faults : (setHw f s).faults = s.faults := rfl
@[simp] theorem setHw_initialized : (setHw f s).initialized = s.initialized := rfl
@[simp] theorem setHw_hw : (setHw f s).hw = f s.hw := rfl
@[simp] theorem setHw_callers : (setHw f s).callers = s.callers := rfl
@[simp] theorem setHw_callerMem : (setHw f s).callerMem = s.callerMem := rfl
@[simp] theorem setHw_cmdLog : (setHw f s).cmdLog = s.cmdLog := rfl
@[simp] theorem setHw_cbLog : (setHw f s).cbLog = s.cbLog := rfl
@[simp] theorem setHw_resultLog : (setHw f s).resultLog = s.resultLog := rfl
@[simp] theorem setHw_busLog : (setHw f s).busLog = s.busLog := rfl
@[simp] theorem setHw_bootCmdLog : (setHw f s).bootCmdLog = s.bootCmdLog := rfl
@[simp] theorem setHw_bootResultLog : (setHw f s).bootResultLog = s.bootResultLog := rfl
@[simp] theorem setHw_cfg : (setHw f s).cfg = s.cfg := rfl
@[simp] theorem setHw_schedule : (setHw f s).schedule = s.schedule := rfl
@[simp] theorem setHw_issue : (setHw f s).issue = s.issue := rfl
@[simp] theorem setHw_oracle : (setHw f s).oracle = s.oracle := rfl
end setHw

section logCmd
variable (i : Instr) (r : Option CmdResult)
@[simp] theorem logCmd_masterState : (logCmd i r s).masterState = s.masterState := rfl
@[simp] theorem logCmd_slaveState : (logCmd i r s).slaveState = s.slaveState := rfl
@[simp] theorem logCmd_txBuffer : (logCmd i r s).txBuffer = s.txBuffer := rfl
@[simp] theorem logCmd_rxBuffer : (logCmd i r s).rxBuffer = s.rxBuffer := rfl
@[simp] theorem logCmd_txCount : (logCmd i r s).txCount = s.txCount := rfl
@[simp] theorem logCmd_rxCount : (logCmd i r s).rxCount = s.rxCount := rfl
@[simp] theorem logCmd_deviceAddress : (logCmd i r s).deviceAddress = s.deviceAddress := rfl
@[simp] theorem logCmd_errorCode : (logCmd i r s).errorCode = s.errorCode := rfl
@[simp] theorem logCmd_slaveConfig : (logCmd i r s).slaveConfig = s.slaveConfig := rfl
@[simp] theorem logCmd_readDest : (logCmd i r s).readDest = s.readDest := rfl
@[simp] theorem logCmd_sourceClock : (logCmd i r s).sourceClock = s.sourceClock := rfl
@[simp] theorem logCmd_bitrate : (logCmd i r s).bitrate = s.bitrate := rfl
@[simp] theorem logCmd_lock : (logCmd i r s).lock = s.lock := rfl
@[simp] theorem logCmd_completion : (logCmd i r s).completion = s.completion := rfl
@[simp] theorem logCmd_slaveErrors : (logCmd i r s).slaveErrors = s.slaveErrors := rfl
@[simp] theorem logCmd_faults : (logCmd i r s).faults = s.faults := rfl
@[simp] theorem logCmd_initialized : (logCmd i r s).initialized = s.initialized := rfl
@[simp] theorem logCmd_hw : (logCmd i r s).hw = s.hw := rfl
@[simp] theorem logCmd_callers : (logCmd i r s).callers = s.callers := rfl
@[simp] theorem logCmd_callerMem : (logCmd i r s).callerMem = s.callerMem := rfl
@[simp] theorem logCmd_cmdLog : (logCmd i r s).cmdLog = s.cmdLog ++ [{ word := encodeWord i, thresholds := none, result := r }] := rfl
@[simp] theorem logCmd_cbLog : (logCmd i r s).cbLog = s.cbLog := rfl
@[simp] theorem logCmd_resultLog : (logCmd i r s).resultLog = s.resultLog := rfl
@[simp] theorem logCmd_busLog : (logCmd i r s).busLog = s.busLog := rfl
@[simp] theorem logCmd_bootCmdLog : (logCmd i r s).bootCmdLog = s.bootCmdLog := rfl
@[simp] theorem logCmd_bootResultLog : (logCmd i r s).bootResultLog = s.bootResultLog := rfl
@[simp] theorem logCmd_cfg : (logCmd i r s).cfg = s.cfg := rfl
@[simp] theorem logCmd_schedule : (logCmd i r s).schedule = s.schedule := rfl
@[simp] theorem logCmd_issue : (logCmd i r s).issue = s.issue := rfl
@[simp] theorem logCmd_oracle : (logCmd i r s).oracle = s.oracle := rfl
end logCmd

section logTimeoutCmd
variable (t : Thresholds)
@[simp] theorem logTimeoutCmd_masterState : (logTimeoutCmd t s).masterState = s.masterState := rfl
@[simp] theorem logTimeoutCmd_slaveState : (logTimeoutCmd t s).slaveState = s.slaveState := rfl
@[simp] theorem logTimeoutCmd_txBuffer : (logTimeoutCmd t s).txBuffer = s.txBuffer := rfl
@[simp] theorem logTimeoutCmd_rxBuffer : (logTimeoutCmd t s).rxBuffer = s.rxBuffer := rfl
@[simp] theorem logTimeoutCmd_txCount : (logTimeoutCmd t s).txCount = s.txCount := rfl
@[simp] theorem logTimeoutCmd_rxCount : (logTimeoutCmd t s).rxCount = s.rxCount := rfl
@[simp] theorem logTimeoutCmd_deviceAddress : (logTimeoutCmd t s).deviceAddress = s.deviceAddress := rfl
@[simp] theorem logTimeoutCmd_errorCode : (logTimeoutCmd t s).errorCode = s.errorCode := rfl
@[simp] theorem logTimeoutCmd_slaveConfig : (logTimeoutCmd t s).slaveConfig = s.slaveConfig := rfl
@[simp] theorem logTimeoutCmd_readDest : (logTimeoutCmd t s).readDest = s.readDest := rfl
@[simp] theorem logTimeoutCmd_sourceClock : (logTimeoutCmd t s).sourceClock = s.sourceClock := rfl
@[simp] theorem logTimeoutCmd_bitrate : (logTimeoutCmd t s).bitrate = s.bitrate := rfl
@[simp] theorem logTimeoutCmd_lock : (logTimeoutCmd t s).lock = s.lock := rfl
@[simp] theorem logTimeoutCmd_completion : (logTimeoutCmd t s).completion = s.completion := rfl
@[simp] theorem logTimeoutCmd_slaveErrors : (logTimeoutCmd t s).slaveErrors = s.slaveErrors := rfl
@[simp] theorem logTimeoutCmd_faults : (logTimeoutCmd t s).faults = s.faults := rfl
@[simp] theorem logTimeoutCmd_initialized : (logTimeoutCmd t s).initialized = s.initialized := rfl
@[simp] theorem logTimeoutCmd_hw : (logTimeoutCmd t s).hw = s.hw := rfl
@[simp] theorem logTimeoutCmd_callers : (logTimeoutCmd t s).callers = s.callers := rfl
@[simp] theorem logTimeoutCmd_callerMem : (logTimeoutCmd t s).callerMem = s.callerMem := rfl
@[simp] theorem logTimeoutCmd_cmdLog : (logTimeoutCmd t s).cmdLog = s.cmdLog ++ [{ word := encodeWord .hwSetTimeout, thresholds := some t, result := none }] := rfl
@[simp] theorem logTimeoutCmd_cbLog : (logTimeoutCmd t s).cbLog = s.cbLog := rfl
@[simp] theorem logTimeoutCmd_resultLog : (logTimeoutCmd t s).resultLog = s.resultLog := rfl
@[simp] theorem logTimeoutCmd_busLog : (logTimeoutCmd t s).busLog = s.busLog := rfl
@[simp] theorem logTimeoutCmd_bootCmdLog : (logTimeoutCmd t s).bootCmdLog = s.bootCmdLog := rfl
@[simp] theorem logTimeoutCmd_bootResultLog : (logTimeoutCmd t s).bootResultLog = s.bootResultLog := rfl
@[simp] theorem logTimeoutCmd_cfg : (logTimeoutCmd t s).cfg = s.cfg := rfl
@[simp] theorem logTimeoutCmd_schedule : (logTimeoutCmd t s).schedule = s.schedule := rfl
@[simp] theorem logTimeoutCmd_issue : (logTimeoutCmd t s).issue = s.issue := rfl
@[simp] theorem logTimeoutCmd_oracle : (logTimeoutCmd t s).oracle = s.oracle := rfl
end logTimeoutCmd

section logBus
variable (e : BusEvent)
@[simp] theorem logBus_masterState : (logBus e s).masterState = s.masterState := rfl
@[simp] theorem logBus_slaveState : (logBus e s).slaveState = s.slaveState := rfl
@[simp] theorem logBus_txBuffer : (logBus e s).txBuffer = s.txBuffer := rfl
@[simp] theorem logBus_rxBuffer : (logBus e s).rxBuffer = s.rxBuffer := rfl
@[simp] theorem logBus_txCount : (logBus e s).txCount = s.txCount := rfl
@[simp] theorem logBus_rxCount : (logBus e s).rxCount = s.rxCount := rfl
@[simp] theorem logBus_deviceAddress : (logBus e s).deviceAddress = s.deviceAddress := rfl
@[simp] theorem logBus_errorCode : (logBus e s).errorCode = s.errorCode := rfl
@[simp] theorem logBus_slaveConfig : (logBus e s).slaveConfig = s.slaveConfig := rfl
@[simp] theorem logBus_readDest : (logBus e s).readDest = s.readDest := rfl
@[simp] theorem logBus_sourceClock : (logBus e s).sourceClock = s.sourceClock := rfl
@[simp] theorem logBus_bitrate : (logBus e s).bitrate = s.bitrate := rfl
@[simp] theorem logBus_lock : (logBus e s).lock = s.lock := rfl
@[simp] theorem logBus_completion : (logBus e s).completion = s.completion := rfl
@[simp] theorem logBus_slaveErrors : (logBus e s).slaveErrors = s.slaveErrors := rfl
@[simp] theorem logBus_faults : (logBus e s).faults = s.faults := rfl
@[simp] theorem logBus_initialized : (logBus e s).initialized = s.initialized := rfl
@[simp] theorem logBus_hw : (logBus e s).hw = s.hw := rfl
@[simp] theorem logBus_callers : (logBus e s).callers = s.callers := rfl
@[simp] theorem logBus_callerMem : (logBus e s).callerMem = s.callerMem := rfl
@[simp] theorem logBus_cmdLog : (logBus e s).cmdLog = s.cmdLog := rfl
@[simp] theorem logBus_cbLog : (logBus e s).cbLog = s.cbLog := rfl
@[simp] theorem logBus_resultLog : (logBus e s).resultLog = s.resultLog := rfl
@[simp] theorem logBus_busLog : (logBus e s).busLog = s.busLog ++ [e] := rfl
@[simp] theorem logBus_bootCmdLog : (logBus e s).bootCmdLog = s.bootCmdLog := rfl
@[simp] theorem logBus_bootResultLog : (logBus e s).bootResultLog = s.bootResultLog := rfl
@[simp] theorem logBus_cfg : (logBus e s).cfg = s.cfg := rfl
@[simp] theorem logBus_schedule : (logBus e s).schedule = s.schedule := rfl
@[simp] theorem logBus_issue : (logBus e s).issue = s.issue := rfl
@[simp] theorem logBus_oracle : (logBus e s).oracle = { s.oracle with turns := s.oracle.turns + 1 } := rfl
end logBus

section logCallback
variable (c : Callback) (x : CbAnswer)
@[simp] theorem logCallback_masterState : (logCallback c x s).masterState = s.masterState := rfl
@[simp] theorem logCallback_slaveState : (logCallback c x s).slaveState = s.slaveState := rfl
@[simp] theorem logCallback_txBuffer : (logCallback c x s).txBuffer = s.txBuffer := rfl
@[simp] theorem logCallback_rxBuffer : (logCallback c x s).rxBuffer = s.rxBuffer := rfl
@[simp] theorem logCallback_txCount : (logCallback c x s).txCount = s.txCount := rfl
@[simp] theorem logCallback_rxCount : (logCallback c x s).rxCount = s.rxCount := rfl
@[simp] theorem logCallback_deviceAddress : (logCallback c x s).deviceAddress = s.deviceAddress := rfl
@[simp] theorem logCallback_errorCode : (logCallback c x s).errorCode = s.errorCode := rfl
@[simp] theorem logCallback_slaveConfig : (logCallback c x s).slaveConfig = s.slaveConfig := rfl
@[simp] theorem logCallback_readDest : (logCallback c x s).readDest = s.readDest := rfl
@[simp] theorem logCallback_sourceClock : (logCallback c x s).sourceClock = s.sourceClock := rfl
@[simp] theorem logCallback_bitrate : (logCallback c x s).bitrate = s.bitrate := rfl
@[simp] theorem logCallback_lock : (logCallback c x s).lock = s.lock := rfl
@[simp] theorem logCallback_completion : (logCallback c x s).completion = s.completion := rfl
@[simp] theorem logCallback_slaveErrors : (logCallback c x s).slaveErrors = s.slaveErrors := rfl
@[simp] theorem logCallback_faults : (logCallback c x s).faults = s.faults := rfl
@[simp] theorem logCallback_initialized : (logCallback c x s).initialized = s.initialized := rfl
@[simp] theorem logCallback_hw : (logCallback c x s).hw = s.hw := rfl
@[simp] theorem logCallback_callers : (logCallback c x s).callers = s.callers := rfl
@[simp] theorem logCallback_callerMem : (logCallback c x s).callerMem = s.callerMem := rfl
@[simp] theorem logCallback_cmdLog : (logCallback c x s).cmdLog = s.cmdLog := rfl
@[simp] theorem logCallback_cbLog : (logCallback c x s).cbLog = s.cbLog ++ [{ call := c, answer := x }] := rfl
@[simp] theorem logCallback_resultLog : (logCallback c x s).resultLog = s.resultLog := rfl
@[simp] theorem logCallback_busLog : (logCallback c x s).busLog = s.busLog := rfl
@[simp] theorem logCallback_bootCmdLog : (logCallback c x s).bootCmdLog = s.bootCmdLog := rfl
@[simp] theorem logCallback_bootResultLog : (logCallback c x s).bootResultLog = s.bootResultLog := rfl
@[simp] theorem logCallback_cfg : (logCallback c x s).cfg = s.cfg := rfl
@[simp] theorem logCallback_schedule : (logCallback c x s).schedule = s.schedule := rfl
@[simp] theorem logCallback_issue : (logCallback c x s).issue = s.issue := rfl
@[simp] theorem logCallback_oracle : (logCallback c x s).oracle = s.oracle := rfl
end logCallback

section raiseFault
variable (r : Fault)
@[simp] theorem raiseFault_masterState : (raiseFault r s).masterState = s.masterState := rfl
@[simp] theorem raiseFault_slaveState : (raiseFault r s).slaveState = s.slaveState := rfl
@[simp] theorem raiseFault_txBuffer : (raiseFault r s).txBuffer = s.txBuffer := rfl
@[simp] theorem raiseFault_rxBuffer : (raiseFault r s).rxBuffer = s.rxBuffer := rfl
@[simp] theorem raiseFault_txCount : (raiseFault r s).txCount = s.txCount := rfl
@[simp] theorem raiseFault_rxCount : (raiseFault r s).rxCount = s.rxCount := rfl
@[simp] theorem raiseFault_deviceAddress : (raiseFault r s).deviceAddress = s.deviceAddress := rfl
@[simp] theorem raiseFault_errorCode : (raiseFault r s).errorCode = s.errorCode := rfl
@[simp] theorem raiseFault_slaveConfig : (raiseFault r s).slaveConfig = s.slaveConfig := rfl
@[simp] theorem raiseFault_readDest : (raiseFault r s).readDest = s.readDest := rfl
@[simp] theorem raiseFault_sourceClock : (raiseFault r s).sourceClock = s.sourceClock := rfl
@[simp] theorem raiseFault_bitrate : (raiseFault r s).bitrate = s.bitrate := rfl
@[simp] theorem raiseFault_lock : (raiseFault r s).lock = s.lock := rfl
@[simp] theorem raiseFault_completion : (raiseFault r s).completion = s.completion := rfl
@[simp] theorem raiseFault_slaveErrors : (raiseFault r s).slaveErrors = s.slaveErrors := rfl
@[simp] theorem raiseFault_faults : (raiseFault r s).faults = s.faults ++ [r] := rfl
@[simp] theorem raiseFault_initialized : (raiseFault r s).initialized = s.initialized := rfl
@[simp] theorem raiseFault_hw : (raiseFault r s).hw = s.hw := rfl
@[simp] theorem raiseFault_callers : (raiseFault r s).callers = s.callers := rfl
@[simp] theorem raiseFault_callerMem : (raiseFault r s).callerMem = s.callerMem := rfl
@[simp] theorem raiseFault_cmdLog : (raiseFault r s).cmdLog = s.cmdLog := rfl
@[simp] theorem raiseFault_cbLog : (raiseFault r s).cbLog = s.cbLog := rfl
@[simp] theorem raiseFault_resultLog : (raiseFault r s).resultLog = s.resultLog := rfl
@[simp] theorem raiseFault_busLog : (raiseFault r s).busLog = s.busLog := rfl
@[simp] theorem raiseFault_bootCmdLog : (raiseFault r s).bootCmdLog = s.bootCmdLog := rfl
@[simp] theorem raiseFault_bootResultLog : (raiseFault r s).bootResultLog = s.bootResultLog := rfl
@[simp] theorem raiseFault_cfg : (raiseFault r s).cfg = s.cfg := rfl
@[simp] theorem raiseFault_schedule : (raiseFault r s).schedule = s.schedule := rfl
@[simp] theorem raiseFault_issue : (raiseFault r s).issue = s.issue := rfl
@[simp] theorem raiseFault_oracle : (raiseFault r s).oracle = s.oracle := rfl
end raiseFault

section setCallerByte
variable (a : Nat) (b : Byte)
@[simp] theorem setCallerByte_masterState : (setCallerByte a b s).masterState = s.masterState := rfl
@[simp] theorem setCallerByte_slaveState : (setCallerByte a b s).slaveState = s.slaveState := rfl
@[simp] theorem setCallerByte_txBuffer : (setCallerByte a b s).txBuffer = s.txBuffer := rfl
@[simp] theorem setCallerByte_rxBuffer : (setCallerByte a b s).rxBuffer = s.rxBuffer := rfl
@[simp] theorem setCallerByte_txCount : (setCallerByte a b s).txCount = s.txCount := rfl
@[simp] theorem setCallerByte_rxCount : (setCallerByte a b s).rxCount = s.rxCount := rfl
@[simp] theorem setCallerByte_deviceAddress : (setCallerByte a b s).deviceAddress = s.deviceAddress := rfl
@[simp] theorem setCallerByte_errorCode : (setCallerByte a b s).errorCode = s.errorCode := rfl
@[simp] theorem setCallerByte_slaveConfig : (setCallerByte a b s).slaveConfig = s.slaveConfig := rfl
@[simp] theorem setCallerByte_readDest : (setCallerByte a b s).readDest = s.readDest := rfl
@[simp] theorem setCallerByte_sourceClock : (setCallerByte a b s).sourceClock = s.sourceClock := rfl
@[simp] theorem setCallerByte_bitrate : (setCallerByte a b s).bitrate = s.bitrate := rfl
@[simp] theorem setCallerByte_lock : (setCallerByte a b s).lock = s.lock := rfl
@[simp] theorem setCallerByte_completion : (setCallerByte a b s).completion = s.completion := rfl
@[simp] theorem setCallerByte_slaveErrors : (setCallerByte a b s).slaveErrors = s.slaveErrors := rfl
@[simp] theorem setCallerByte_faults : (setCallerByte a b s).faults = s.faults := rfl
@[simp] theorem setCallerByte_initialized : (setCallerByte a b s).initialized = s.initialized := rfl
@[simp] theorem setCallerByte_hw : (setCallerByte a b s).hw = s.hw := rfl
@[simp] theorem setCallerByte_callers : (setCallerByte a b s).callers = s.callers := rfl
@[simp] theorem setCallerByte_callerMem : (setCallerByte a b s).callerMem = Memory.write callerUnlisted s.callerMem a b := rfl
@[simp] theorem setCallerByte_cmdLog : (setCallerByte a b s).cmdLog = s.cmdLog := rfl
@[simp] theorem setCallerByte_cbLog : (setCallerByte a b s).cbLog = s.cbLog := rfl
@[simp] theorem setCallerByte_resultLog : (setCallerByte a b s).resultLog = s.resultLog := rfl
@[simp] theorem setCallerByte_busLog : (setCallerByte a b s).busLog = s.busLog := rfl
@[simp] theorem setCallerByte_bootCmdLog : (setCallerByte a b s).bootCmdLog = s.bootCmdLog := rfl
@[simp] theorem setCallerByte_bootResultLog : (setCallerByte a b s).bootResultLog = s.bootResultLog := rfl
@[simp] theorem setCallerByte_cfg : (setCallerByte a b s).cfg = s.cfg := rfl
@[simp] theorem setCallerByte_schedule : (setCallerByte a b s).schedule = s.schedule := rfl
@[simp] theorem setCallerByte_issue : (setCallerByte a b s).issue = s.issue := rfl
@[simp] theorem setCallerByte_oracle : (setCallerByte a b s).oracle = s.oracle := rfl
end setCallerByte

section setCaller
variable (a : Nat) (c : Caller)
@[simp] theorem setCaller_masterState : (setCaller a c s).masterState = s.masterState := rfl
@[simp] theorem setCaller_slaveState : (setCaller a c s).slaveState = s.slaveState := rfl
@[simp] theorem setCaller_txBuffer : (setCaller a c s).txBuffer = s.txBuffer := rfl
@[simp] theorem setCaller_rxBuffer : (setCaller a c s).rxBuffer = s.rxBuffer := rfl
@[simp] theorem setCaller_txCount : (setCaller a c s).txCount = s.txCount := rfl
@[simp] theorem setCaller_rxCount : (setCaller a c s).rxCount = s.rxCount := rfl
@[simp] theorem setCaller_deviceAddress : (setCaller a c s).deviceAddress = s.deviceAddress := rfl
@[simp] theorem setCaller_errorCode : (setCaller a c s).errorCode = s.errorCode := rfl
@[simp] theorem setCaller_slaveConfig : (setCaller a c s).slaveConfig = s.slaveConfig := rfl
@[simp] theorem setCaller_readDest : (setCaller a c s).readDest = s.readDest := rfl
@[simp] theorem setCaller_sourceClock : (setCaller a c s).sourceClock = s.sourceClock := rfl
@[simp] theorem setCaller_bitrate : (setCaller a c s).bitrate = s.bitrate := rfl
@[simp] theorem setCaller_lock : (setCaller a c s).lock = s.lock := rfl
@[simp] theorem setCaller_completion : (setCaller a c s).completion = s.completion := rfl
@[simp] theorem setCaller_slaveErrors : (setCaller a c s).slaveErrors = s.slaveErrors := rfl
@[simp] theorem setCaller_faults : (setCaller a c s).faults = s.faults := rfl
@[simp] theorem setCaller_initialized : (setCaller a c s).initialized = s.initialized := rfl
@[simp] theorem setCaller_hw : (setCaller a c s).hw = s.hw := rfl
@[simp] theorem setCaller_callers : (setCaller a c s).callers = if c = Caller.idle then Assoc.drop s.callers a else Assoc.put s.callers a c := rfl
@[simp] theorem setCaller_callerMem : (setCaller a c s).callerMem = s.callerMem := rfl
@[simp] theorem setCaller_cmdLog : (setCaller a c s).cmdLog = s.cmdLog := rfl
@[simp] theorem setCaller_cbLog : (setCaller a c s).cbLog = s.cbLog := rfl
@[simp] theorem setCaller_resultLog : (setCaller a c s).resultLog = s.resultLog := rfl
@[simp] theorem setCaller_busLog : (setCaller a c s).busLog = s.busLog := rfl
@[simp] theorem setCaller_bootCmdLog : (setCaller a c s).bootCmdLog = s.bootCmdLog := rfl
@[simp] theorem setCaller_bootResultLog : (setCaller a c s).bootResultLog = s.bootResultLog := rfl
@[simp] theorem setCaller_cfg : (setCaller a c s).cfg = s.cfg := rfl
@[simp] theorem setCaller_schedule : (setCaller a c s).schedule = s.schedule := rfl
@[simp] theorem setCaller_issue : (setCaller a c s).issue = s.issue := rfl
@[simp] theorem setCaller_oracle : (setCaller a c s).oracle = s.oracle := rfl
end setCaller

section release
@[simp] theorem release_masterState : (release s).masterState = s.masterState := rfl
@[simp] theorem release_slaveState : (release s).slaveState = s.slaveState := rfl
@[simp] theorem release_txBuffer : (release s).txBuffer = s.txBuffer := rfl
@[simp] theorem release_rxBuffer : (release s).rxBuffer = s.rxBuffer := rfl
@[simp] theorem release_txCount : (release s).txCount = s.txCount := rfl
@[simp] theorem release_rxCount : (release s).rxCount = s.rxCount := rfl
@[simp] theorem release_deviceAddress : (release s).deviceAddress = s.deviceAddress := rfl
@[simp] theorem release_errorCode : (release s).errorCode = s.errorCode := rfl
@[simp] theorem release_slaveConfig : (release s).slaveConfig = s.slaveConfig := rfl
@[simp] theorem release_readDest : (release s).readDest = s.readDest := rfl
@[simp] theorem release_sourceClock : (release s).sourceClock = s.sourceClock := rfl
@[simp] theorem release_bitrate : (release s).bitrate = s.bitrate := rfl
@[simp] theorem release_lock : (release s).lock = .free := rfl
@[simp] theorem release_completion : (release s).completion = s.completion := rfl
@[simp] theorem release_slaveErrors : (release s).slaveErrors = s.slaveErrors := rfl
@[simp] theorem release_faults : (release s).faults = s.faults := rfl
@[simp] theorem release_initialized : (release s).initialized = s.initialized := rfl
@[simp] theorem release_hw : (release s).hw = s.hw := rfl
@[simp] theorem release_callers : (release s).callers = s.callers := rfl
@[simp] theorem release_callerMem : (release s).callerMem = s.callerMem := rfl
@[simp] theorem release_cmdLog : (release s).cmdLog = s.cmdLog := rfl
@[simp] theorem release_cbLog : (release s).cbLog = s.cbLog := rfl
@[simp] theorem release_resultLog : (release s).resultLog = s.resultLog := rfl
@[simp] theorem release_busLog : (release s).busLog = s.busLog := rfl
@[simp] theorem release_bootCmdLog : (release s).bootCmdLog = s.bootCmdLog := rfl
@[simp] theorem release_bootResultLog : (release s).bootResultLog = s.bootResultLog := rfl
@[simp] theorem release_cfg : (release s).cfg = s.cfg := rfl
@[simp] theorem release_schedule : (release s).schedule = s.schedule := rfl
@[simp] theorem release_issue : (release s).issue = s.issue := rfl
@[simp] theorem release_oracle : (release s).oracle = s.oracle := rfl
end release

section notify
variable (e : ErrorKind)
@[simp] theorem notify_masterState : (notify e s).masterState = s.masterState := rfl
@[simp] theorem notify_slaveState : (notify e s).slaveState = s.slaveState := rfl
@[simp] theorem notify_txBuffer : (notify e s).txBuffer = s.txBuffer := rfl
@[simp] theorem notify_rxBuffer : (notify e s).rxBuffer = s.rxBuffer := rfl
@[simp] theorem notify_txCount : (notify e s).txCount = s.txCount := rfl
@[simp] theorem notify_rxCount : (notify e s).rxCount = s.rxCount := rfl
@[simp] theorem notify_deviceAddress : (notify e s).deviceAddress = s.deviceAddress := rfl
@[simp] theorem notify_errorCode : (notify e s).errorCode = e := rfl
@[simp] theorem notify_slaveConfig : (notify e s).slaveConfig = s.slaveConfig := rfl
@[simp] theorem notify_readDest : (notify e s).readDest = s.readDest := rfl
@[simp] theorem notify_sourceClock : (notify e s).sourceClock = s.sourceClock := rfl
@[simp] theorem notify_bitrate : (notify e s).bitrate = s.bitrate := rfl
@[simp] theorem notify_lock : (notify e s).lock = s.lock := rfl
@[simp] theorem notify_completion : (notify e s).completion = true := rfl
@[simp] theorem notify_slaveErrors : (notify e s).slaveErrors = s.slaveErrors := rfl
@[simp] theorem notify_faults : (notify e s).faults = s.faults := rfl
@[simp] theorem notify_initialized : (notify e s).initialized = s.initialized := rfl
@[simp] theorem notify_hw : (notify e s).hw = s.hw := rfl
@[simp] theorem notify_callers : (notify e s).callers = s.callers := rfl
@[simp] theorem notify_callerMem : (notify e s).callerMem = s.callerMem := rfl
@[simp] theorem notify_cmdLog : (notify e s).cmdLog = s.cmdLog := rfl
@[simp] theorem notify_cbLog : (notify e s).cbLog = s.cbLog := rfl
@[simp] theorem notify_resultLog : (notify e s).resultLog = s.resultLog := rfl
@[simp] theorem notify_busLog : (notify e s).busLog = s.busLog := rfl
@[simp] theorem notify_bootCmdLog : (notify e s).bootCmdLog = s.bootCmdLog := rfl
@[simp] theorem notify_bootResultLog : (notify e s).bootResultLog = s.bootResultLog := rfl
@[simp] theorem notify_cfg : (notify e s).cfg = s.cfg := rfl
@[simp] theorem notify_schedule : (notify e s).schedule = s.schedule := rfl
@[simp] theorem notify_issue : (notify e s).issue = s.issue := rfl
@[simp] theorem notify_oracle : (notify e s).oracle = s.oracle := rfl
end notify

section enterCall
variable (a : Nat) (op : EntryPoint) (args : CallArgs)
@[simp] theorem enterCall_masterState : (enterCall a op args s).masterState = s.masterState := rfl
@[simp] theorem enterCall_slaveState : (enterCall a op args s).slaveState = s.slaveState := rfl
@[simp] theorem enterCall_txBuffer : (enterCall a op args s).txBuffer = s.txBuffer := rfl
@[simp] theorem enterCall_rxBuffer : (enterCall a op args s).rxBuffer = s.rxBuffer := rfl
@[simp] theorem enterCall_txCount : (enterCall a op args s).txCount = s.txCount := rfl
@[simp] theorem enterCall_rxCount : (enterCall a op args s).rxCount = s.rxCount := rfl
@[simp] theorem enterCall_deviceAddress : (enterCall a op args s).deviceAddress = s.deviceAddress := rfl
@[simp] theorem enterCall_errorCode : (enterCall a op args s).errorCode = s.errorCode := rfl
@[simp] theorem enterCall_slaveConfig : (enterCall a op args s).slaveConfig = s.slaveConfig := rfl
@[simp] theorem enterCall_readDest : (enterCall a op args s).readDest = s.readDest := rfl
@[simp] theorem enterCall_sourceClock : (enterCall a op args s).sourceClock = s.sourceClock := rfl
@[simp] theorem enterCall_bitrate : (enterCall a op args s).bitrate = s.bitrate := rfl
@[simp] theorem enterCall_lock : (enterCall a op args s).lock = s.lock := rfl
@[simp] theorem enterCall_completion : (enterCall a op args s).completion = s.completion := rfl
@[simp] theorem enterCall_slaveErrors : (enterCall a op args s).slaveErrors = s.slaveErrors := rfl
@[simp] theorem enterCall_faults : (enterCall a op args s).faults = s.faults := rfl
@[simp] theorem enterCall_initialized : (enterCall a op args s).initialized = s.initialized := rfl
@[simp] theorem enterCall_hw : (enterCall a op args s).hw = s.hw := rfl
@[simp] theorem enterCall_callers : (enterCall a op args s).callers = Assoc.put s.callers a
    { op := some op, pc := 1, args := args, result := none, outer := callFrame (getCaller s a) } :=
  by simp [enterCall, Caller.idle]
@[simp] theorem enterCall_callerMem : (enterCall a op args s).callerMem = s.callerMem := rfl
@[simp] theorem enterCall_cmdLog : (enterCall a op args s).cmdLog = s.cmdLog := rfl
@[simp] theorem enterCall_cbLog : (enterCall a op args s).cbLog = s.cbLog := rfl
@[simp] theorem enterCall_resultLog : (enterCall a op args s).resultLog = s.resultLog := rfl
@[simp] theorem enterCall_busLog : (enterCall a op args s).busLog = s.busLog := rfl
@[simp] theorem enterCall_bootCmdLog : (enterCall a op args s).bootCmdLog = s.bootCmdLog := rfl
@[simp] theorem enterCall_bootResultLog : (enterCall a op args s).bootResultLog = s.bootResultLog := rfl
@[simp] theorem enterCall_cfg : (enterCall a op args s).cfg = s.cfg := rfl
@[simp] theorem enterCall_schedule : (enterCall a op args s).schedule = s.schedule := rfl
@[simp] theorem enterCall_issue : (enterCall a op args s).issue = s.issue := rfl
@[simp] theorem enterCall_oracle : (enterCall a op args s).oracle = s.oracle := rfl
end enterCall

section setPc
variable (a n : Nat)
@[simp] theorem setPc_masterState : (setPc a n s).masterState = s.masterState := rfl
@[simp] theorem setPc_slaveState : (setPc a n s).slaveState = s.slaveState := rfl
@[simp] theorem setPc_txBuffer : (setPc a n s).txBuffer = s.txBuffer := rfl
@[simp] theorem setPc_rxBuffer : (setPc a n s).rxBuffer = s.rxBuffer := rfl
@[simp] theorem setPc_txCount : (setPc a n s).txCount = s.txCount := rfl
@[simp] theorem setPc_rxCount : (setPc a n s).rxCount = s.rxCount := rfl
@[simp] theorem setPc_deviceAddress : (setPc a n s).deviceAddress = s.deviceAddress := rfl
@[simp] theorem setPc_errorCode : (setPc a n s).errorCode = s.errorCode := rfl
@[simp] theorem setPc_slaveConfig : (setPc a n s).slaveConfig = s.slaveConfig := rfl
@[simp] theorem setPc_readDest : (setPc a n s).readDest = s.readDest := rfl
@[simp] theorem setPc_sourceClock : (setPc a n s).sourceClock = s.sourceClock := rfl
@[simp] theorem setPc_bitrate : (setPc a n s).bitrate = s.bitrate := rfl
@[simp] theorem setPc_lock : (setPc a n s).lock = s.lock := rfl
@[simp] theorem setPc_completion : (setPc a n s).completion = s.completion := rfl
@[simp] theorem setPc_slaveErrors : (setPc a n s).slaveErrors = s.slaveErrors := rfl
@[simp] theorem setPc_faults : (setPc a n s).faults = s.faults := rfl
@[simp] theorem setPc_initialized : (setPc a n s).initialized = s.initialized := rfl
@[simp] theorem setPc_hw : (setPc a n s).hw = s.hw := rfl
@[simp] theorem setPc_callerMem : (setPc a n s).callerMem = s.callerMem := rfl
@[simp] theorem setPc_cmdLog : (setPc a n s).cmdLog = s.cmdLog := rfl
@[simp] theorem setPc_cbLog : (setPc a n s).cbLog = s.cbLog := rfl
@[simp] theorem setPc_resultLog : (setPc a n s).resultLog = s.resultLog := rfl
@[simp] theorem setPc_busLog : (setPc a n s).busLog = s.busLog := rfl
@[simp] theorem setPc_bootCmdLog : (setPc a n s).bootCmdLog = s.bootCmdLog := rfl
@[simp] theorem setPc_bootResultLog : (setPc a n s).bootResultLog = s.bootResultLog := rfl
@[simp] theorem setPc_cfg : (setPc a n s).cfg = s.cfg := rfl
@[simp] theorem setPc_schedule : (setPc a n s).schedule = s.schedule := rfl
@[simp] theorem setPc_issue : (setPc a n s).issue = s.issue := rfl
@[simp] theorem setPc_oracle : (setPc a n s).oracle = s.oracle := rfl
end setPc

section returnCall
variable (a : Nat) (op : EntryPoint) (kind : ErrorKind)
@[simp] theorem returnCall_masterState : (returnCall a op kind s).masterState = s.masterState := rfl
@[simp] theorem returnCall_slaveState : (returnCall a op kind s).slaveState = s.slaveState := rfl
@[simp] theorem returnCall_txBuffer : (returnCall a op kind s).txBuffer = s.txBuffer := rfl
@[simp] theorem returnCall_rxBuffer : (returnCall a op kind s).rxBuffer = s.rxBuffer := rfl
@[simp] theorem returnCall_txCount : (returnCall a op kind s).txCount = s.txCount := rfl
@[simp] theorem returnCall_rxCount : (returnCall a op kind s).rxCount = s.rxCount := rfl
@[simp] theorem returnCall_deviceAddress : (returnCall a op kind s).deviceAddress = s.deviceAddress := rfl
@[simp] theorem returnCall_errorCode : (returnCall a op kind s).errorCode = s.errorCode := rfl
@[simp] theorem returnCall_slaveConfig : (returnCall a op kind s).slaveConfig = s.slaveConfig := rfl
@[simp] theorem returnCall_readDest : (returnCall a op kind s).readDest = s.readDest := rfl
@[simp] theorem returnCall_sourceClock : (returnCall a op kind s).sourceClock = s.sourceClock := rfl
@[simp] theorem returnCall_bitrate : (returnCall a op kind s).bitrate = s.bitrate := rfl
@[simp] theorem returnCall_lock : (returnCall a op kind s).lock = s.lock := rfl
@[simp] theorem returnCall_completion : (returnCall a op kind s).completion = s.completion := rfl
@[simp] theorem returnCall_slaveErrors : (returnCall a op kind s).slaveErrors = s.slaveErrors := rfl
@[simp] theorem returnCall_faults : (returnCall a op kind s).faults = s.faults := rfl
@[simp] theorem returnCall_initialized : (returnCall a op kind s).initialized = s.initialized := rfl
@[simp] theorem returnCall_hw : (returnCall a op kind s).hw = s.hw := rfl
@[simp] theorem returnCall_callers : (returnCall a op kind s).callers = Assoc.put s.callers a (afterReturn (getCaller s a).outer kind) :=
  by
  cases h : (getCaller s a).outer <;> simp [returnCall, afterReturn, Caller.idle, h]
@[simp] theorem returnCall_callerMem : (returnCall a op kind s).callerMem = s.callerMem := rfl
@[simp] theorem returnCall_cmdLog : (returnCall a op kind s).cmdLog = s.cmdLog := rfl
@[simp] theorem returnCall_cbLog : (returnCall a op kind s).cbLog = s.cbLog := rfl
@[simp] theorem returnCall_resultLog : (returnCall a op kind s).resultLog = s.resultLog ++ [{ caller := a, op := op, kind := kind }] := rfl
@[simp] theorem returnCall_busLog : (returnCall a op kind s).busLog = s.busLog := rfl
@[simp] theorem returnCall_bootCmdLog : (returnCall a op kind s).bootCmdLog = s.bootCmdLog := rfl
@[simp] theorem returnCall_bootResultLog : (returnCall a op kind s).bootResultLog = s.bootResultLog := rfl
@[simp] theorem returnCall_cfg : (returnCall a op kind s).cfg = s.cfg := rfl
@[simp] theorem returnCall_schedule : (returnCall a op kind s).schedule = s.schedule := rfl
@[simp] theorem returnCall_issue : (returnCall a op kind s).issue = s.issue := rfl
@[simp] theorem returnCall_oracle : (returnCall a op kind s).oracle = s.oracle := rfl
end returnCall

section acquire
variable (a : Nat)
@[simp] theorem acquire_masterState : (acquire a s).masterState = s.masterState := by unfold acquire; split <;> rfl
@[simp] theorem acquire_slaveState : (acquire a s).slaveState = s.slaveState := by unfold acquire; split <;> rfl
@[simp] theorem acquire_txBuffer : (acquire a s).txBuffer = s.txBuffer := by unfold acquire; split <;> rfl
@[simp] theorem acquire_rxBuffer : (acquire a s).rxBuffer = s.rxBuffer := by unfold acquire; split <;> rfl
@[simp] theorem acquire_txCount : (acquire a s).txCount = s.txCount := by unfold acquire; split <;> rfl
@[simp] theorem acquire_rxCount : (acquire a s).rxCount = s.rxCount := by unfold acquire; split <;> rfl
@[simp] theorem acquire_deviceAddress : (acquire a s).deviceAddress = s.deviceAddress := by unfold acquire; split <;> rfl
@[simp] theorem acquire_errorCode : (acquire a s).errorCode = s.errorCode := by unfold acquire; split <;> rfl
@[simp] theorem acquire_slaveConfig : (acquire a s).slaveConfig = s.slaveConfig := by unfold acquire; split <;> rfl
@[simp] theorem acquire_readDest : (acquire a s).readDest = s.readDest := by unfold acquire; split <;> rfl
@[simp] theorem acquire_sourceClock : (acquire a s).sourceClock = s.sourceClock := by unfold acquire; split <;> rfl
@[simp] theorem acquire_bitrate : (acquire a s).bitrate = s.bitrate := by unfold acquire; split <;> rfl
@[simp] theorem acquire_completion : (acquire a s).completion = s.completion := by unfold acquire; split <;> rfl
@[simp] theorem acquire_slaveErrors : (acquire a s).slaveErrors = s.slaveErrors := by unfold acquire; split <;> rfl
@[simp] theorem acquire_faults : (acquire a s).faults = s.faults := by unfold acquire; split <;> rfl
@[simp] theorem acquire_initialized : (acquire a s).initialized = s.initialized := by unfold acquire; split <;> rfl
@[simp] theorem acquire_hw : (acquire a s).hw = s.hw := by unfold acquire; split <;> rfl
@[simp] theorem acquire_callerMem : (acquire a s).callerMem = s.callerMem := by unfold acquire; split <;> rfl
@[simp] theorem acquire_cmdLog : (acquire a s).cmdLog = s.cmdLog := by unfold acquire; split <;> rfl
@[simp] theorem acquire_cbLog : (acquire a s).cbLog = s.cbLog := by unfold acquire; split <;> rfl
@[simp] theorem acquire_resultLog : (acquire a s).resultLog = s.resultLog := by unfold acquire; split <;> rfl
@[simp] theorem acquire_busLog : (acquire a s).busLog = s.busLog := by unfold acquire; split <;> rfl
@[simp] theorem acquire_bootCmdLog : (acquire a s).bootCmdLog = s.bootCmdLog := by unfold acquire; split <;> rfl
@[simp] theorem acquire_bootResultLog : (acquire a s).bootResultLog = s.bootResultLog := by unfold acquire; split <;> rfl
@[simp] theorem acquire_cfg : (acquire a s).cfg = s.cfg := by unfold acquire; split <;> rfl
@[simp] theorem acquire_schedule : (acquire a s).schedule = s.schedule := by unfold acquire; split <;> rfl
@[simp] theorem acquire_issue : (acquire a s).issue = s.issue := by unfold acquire; split <;> rfl
@[simp] theorem acquire_oracle : (acquire a s).oracle = s.oracle := by unfold acquire; split <;> rfl
end acquire

section usedClockAnswer
@[simp] theorem usedClockAnswer_masterState : (usedClockAnswer s).masterState = s.masterState := by unfold usedClockAnswer; split <;> rfl
@[simp] theorem usedClockAnswer_slaveState : (usedClockAnswer s).slaveState = s.slaveState := by unfold usedClockAnswer; split <;> rfl
@[simp] theorem usedClockAnswer_txBuffer : (usedClockAnswer s).txBuffer = s.txBuffer := by unfold usedClockAnswer; split <;> rfl
@[simp] theorem usedClockAnswer_rxBuffer : (usedClockAnswer s).rxBuffer = s.rxBuffer := by unfold usedClockAnswer; split <;> rfl
@[simp] theorem usedClockAnswer_txCount : (usedClockAnswer s).txCount = s.txCount := by unfold usedClockAnswer; split <;> rfl
@[simp] theorem usedClockAnswer_rxCount : (usedClockAnswer s).rxCount = s.rxCount := by unfold usedClockAnswer; split <;> rfl
@[simp] theorem usedClockAnswer_deviceAddress : (usedClockAnswer s).deviceAddress = s.deviceAddress := by unfold usedClockAnswer; split <;> rfl
@[simp] theorem usedClockAnswer_errorCode : (usedClockAnswer s).errorCode = s.errorCode := by unfold usedClockAnswer; split <;> rfl
@[simp] theorem usedClockAnswer_slaveConfig : (usedClockAnswer s).slaveConfig = s.slaveConfig := by unfold usedClockAnswer; split <;> rfl
@[simp] theorem usedClockAnswer_readDest : (usedClockAnswer s).readDest = s.readDest := by unfold usedClockAnswer; split <;> rfl
@[simp] theorem usedClockAnswer_sourceClock : (usedClockAnswer s).sourceClock = s.sourceClock := by unfold usedClockAnswer; split <;> rfl
@[simp] theorem usedClockAnswer_bitrate : (usedClockAnswer s).bitrate = s.bitrate := by unfold usedClockAnswer; split <;> rfl
@[simp] theorem usedClockAnswer_lock : (usedClockAnswer s).lock = s.lock := by unfold usedClockAnswer; split <;> rfl
@[simp] theorem usedClockAnswer_completion : (usedClockAnswer s).completion = s.completion := by unfold usedClockAnswer; split <;> rfl
@[simp] theorem usedClockAnswer_slaveErrors : (usedClockAnswer s).slaveErrors = s.slaveErrors := by unfold usedClockAnswer; split <;> rfl
@[simp] theorem usedClockAnswer_faults : (usedClockAnswer s).faults = s.faults := by unfold usedClockAnswer; split <;> rfl
@[simp] theorem usedClockAnswer_initialized : (usedClockAnswer s).initialized = s.initialized := by unfold usedClockAnswer; split <;> rfl
@[simp] theorem usedClockAnswer_hw : (usedClockAnswer s).hw = s.hw := by unfold usedClockAnswer; split <;> rfl
@[simp] theorem usedClockAnswer_callers : (usedClockAnswer s).callers = s.callers := by unfold usedClockAnswer; split <;> rfl
@[simp] theorem usedClockAnswer_callerMem : (usedClockAnswer s).callerMem = s.callerMem := by unfold usedClockAnswer; split <;> rfl
@[simp] theorem usedClockAnswer_cmdLog : (usedClockAnswer s).cmdLog = s.cmdLog := by unfold usedClockAnswer; split <;> rfl
@[simp] theorem usedClockAnswer_cbLog : (usedClockAnswer s).cbLog = s.cbLog := by unfold usedClockAnswer; split <;> rfl
@[simp] theorem usedClockAnswer_resultLog : (usedClockAnswer s).resultLog = s.resultLog := by unfold usedClockAnswer; split <;> rfl
@[simp] theorem usedClockAnswer_busLog : (usedClockAnswer s).busLog = s.busLog := by unfold usedClockAnswer; split <;> rfl
@[simp] theorem usedClockAnswer_bootCmdLog : (usedClockAnswer s).bootCmdLog = s.bootCmdLog := by unfold usedClockAnswer; split <;> rfl
@[simp] theorem usedClockAnswer_bootResultLog : (usedClockAnswer s).bootResultLog = s.bootResultLog := by unfold usedClockAnswer; split <;> rfl
@[simp] theorem usedClockAnswer_cfg : (usedClockAnswer s).cfg = s.cfg := by unfold usedClockAnswer; split <;> rfl
@[simp] theorem usedClockAnswer_schedule : (usedClockAnswer s).schedule = s.schedule := by unfold usedClockAnswer; split <;> rfl
@[simp] theorem usedClockAnswer_issue : (usedClockAnswer s).issue = s.issue := by unfold usedClockAnswer; split <;> rfl
end usedClockAnswer

section usedRateAnswer
@[simp] theorem usedRateAnswer_masterState : (usedRateAnswer s).masterState = s.masterState := by unfold usedRateAnswer; split <;> rfl
@[simp] theorem usedRateAnswer_slaveState : (usedRateAnswer s).slaveState = s.slaveState := by unfold usedRateAnswer; split <;> rfl
@[simp] theorem usedRateAnswer_txBuffer : (usedRateAnswer s).txBuffer = s.txBuffer := by unfold usedRateAnswer; split <;> rfl
@[simp] theorem usedRateAnswer_rxBuffer : (usedRateAnswer s).rxBuffer = s.rxBuffer := by unfold usedRateAnswer; split <;> rfl
@[simp] theorem usedRateAnswer_txCount : (usedRateAnswer s).txCount = s.txCount := by unfold usedRateAnswer; split <;> rfl
@[simp] theorem usedRateAnswer_rxCount : (usedRateAnswer s).rxCount = s.rxCount := by unfold usedRateAnswer; split <;> rfl
@[simp] theorem usedRateAnswer_deviceAddress : (usedRateAnswer s).deviceAddress = s.deviceAddress := by unfold usedRateAnswer; split <;> rfl
@[simp] theorem usedRateAnswer_errorCode : (usedRateAnswer s).errorCode = s.errorCode := by unfold usedRateAnswer; split <;> rfl
@[simp] theorem usedRateAnswer_slaveConfig : (usedRateAnswer s).slaveConfig = s.slaveConfig := by unfold usedRateAnswer; split <;> rfl
@[simp] theorem usedRateAnswer_readDest : (usedRateAnswer s).readDest = s.readDest := by unfold usedRateAnswer; split <;> rfl
@[simp] theorem usedRateAnswer_sourceClock : (usedRateAnswer s).sourceClock = s.sourceClock := by unfold usedRateAnswer; split <;> rfl
@[simp] theorem usedRateAnswer_bitrate : (usedRateAnswer s).bitrate = s.bitrate := by unfold usedRateAnswer; split <;> rfl
@[simp] theorem usedRateAnswer_lock : (usedRateAnswer s).lock = s.lock := by unfold usedRateAnswer; split <;> rfl
@[simp] theorem usedRateAnswer_completion : (usedRateAnswer s).completion = s.completion := by unfold usedRateAnswer; split <;> rfl
@[simp] theorem usedRateAnswer_slaveErrors : (usedRateAnswer s).slaveErrors = s.slaveErrors := by unfold usedRateAnswer; split <;> rfl
@[simp] theorem usedRateAnswer_faults : (usedRateAnswer s).faults = s.faults := by unfold usedRateAnswer; split <;> rfl
@[simp] theorem usedRateAnswer_initialized : (usedRateAnswer s).initialized = s.initialized := by unfold usedRateAnswer; split <;> rfl
@[simp] theorem usedRateAnswer_hw : (usedRateAnswer s).hw = s.hw := by unfold usedRateAnswer; split <;> rfl
@[simp] theorem usedRateAnswer_callers : (usedRateAnswer s).callers = s.callers := by unfold usedRateAnswer; split <;> rfl
@[simp] theorem usedRateAnswer_callerMem : (usedRateAnswer s).callerMem = s.callerMem := by unfold usedRateAnswer; split <;> rfl
@[simp] theorem usedRateAnswer_cmdLog : (usedRateAnswer s).cmdLog = s.cmdLog := by unfold usedRateAnswer; split <;> rfl
@[simp] theorem usedRateAnswer_cbLog : (usedRateAnswer s).cbLog = s.cbLog := by unfold usedRateAnswer; split <;> rfl
@[simp] theorem usedRateAnswer_resultLog : (usedRateAnswer s).resultLog = s.resultLog := by unfold usedRateAnswer; split <;> rfl
@[simp] theorem usedRateAnswer_busLog : (usedRateAnswer s).busLog = s.busLog := by unfold usedRateAnswer; split <;> rfl
@[simp] theorem usedRateAnswer_bootCmdLog : (usedRateAnswer s).bootCmdLog = s.bootCmdLog := by unfold usedRateAnswer; split <;> rfl
@[simp] theorem usedRateAnswer_bootResultLog : (usedRateAnswer s).bootResultLog = s.bootResultLog := by unfold usedRateAnswer; split <;> rfl
@[simp] theorem usedRateAnswer_cfg : (usedRateAnswer s).cfg = s.cfg := by unfold usedRateAnswer; split <;> rfl
@[simp] theorem usedRateAnswer_schedule : (usedRateAnswer s).schedule = s.schedule := by unfold usedRateAnswer; split <;> rfl
@[simp] theorem usedRateAnswer_issue : (usedRateAnswer s).issue = s.issue := by unfold usedRateAnswer; split <;> rfl
end usedRateAnswer

section usedCallbackAnswer
@[simp] theorem usedCallbackAnswer_masterState : (usedCallbackAnswer s).masterState = s.masterState := by unfold usedCallbackAnswer; split <;> rfl
@[simp] theorem usedCallbackAnswer_slaveState : (usedCallbackAnswer s).slaveState = s.slaveState := by unfold usedCallbackAnswer; split <;> rfl
@[simp] theorem usedCallbackAnswer_txBuffer : (usedCallbackAnswer s).txBuffer = s.txBuffer := by unfold usedCallbackAnswer; split <;> rfl
@[simp] theorem usedCallbackAnswer_rxBuffer : (usedCallbackAnswer s).rxBuffer = s.rxBuffer := by unfold usedCallbackAnswer; split <;> rfl
@[simp] theorem usedCallbackAnswer_txCount : (usedCallbackAnswer s).txCount = s.txCount := by unfold usedCallbackAnswer; split <;> rfl
@[simp] theorem usedCallbackAnswer_rxCount : (usedCallbackAnswer s).rxCount = s.rxCount := by unfold usedCallbackAnswer; split <;> rfl
@[simp] theorem usedCallbackAnswer_deviceAddress : (usedCallbackAnswer s).deviceAddress = s.deviceAddress := by unfold usedCallbackAnswer; split <;> rfl
@[simp] theorem usedCallbackAnswer_errorCode : (usedCallbackAnswer s).errorCode = s.errorCode := by unfold usedCallbackAnswer; split <;> rfl
@[simp] theorem usedCallbackAnswer_slaveConfig : (usedCallbackAnswer s).slaveConfig = s.slaveConfig := by unfold usedCallbackAnswer; split <;> rfl
@[simp] theorem usedCallbackAnswer_readDest : (usedCallbackAnswer s).readDest = s.readDest := by unfold usedCallbackAnswer; split <;> rfl
@[simp] theorem usedCallbackAnswer_sourceClock : (usedCallbackAnswer s).sourceClock = s.sourceClock := by unfold usedCallbackAnswer; split <;> rfl
@[simp] theorem usedCallbackAnswer_bitrate : (usedCallbackAnswer s).bitrate = s.bitrate := by unfold usedCallbackAnswer; split <;> rfl
@[simp] theorem usedCallbackAnswer_lock : (usedCallbackAnswer s).lock = s.lock := by unfold usedCallbackAnswer; split <;> rfl
@[simp] theorem usedCallbackAnswer_completion : (usedCallbackAnswer s).completion = s.completion := by unfold usedCallbackAnswer; split <;> rfl
@[simp] theorem usedCallbackAnswer_slaveErrors : (usedCallbackAnswer s).slaveErrors = s.slaveErrors := by unfold usedCallbackAnswer; split <;> rfl
@[simp] theorem usedCallbackAnswer_faults : (usedCallbackAnswer s).faults = s.faults := by unfold usedCallbackAnswer; split <;> rfl
@[simp] theorem usedCallbackAnswer_initialized : (usedCallbackAnswer s).initialized = s.initialized := by unfold usedCallbackAnswer; split <;> rfl
@[simp] theorem usedCallbackAnswer_hw : (usedCallbackAnswer s).hw = s.hw := by unfold usedCallbackAnswer; split <;> rfl
@[simp] theorem usedCallbackAnswer_callers : (usedCallbackAnswer s).callers = s.callers := by unfold usedCallbackAnswer; split <;> rfl
@[simp] theorem usedCallbackAnswer_callerMem : (usedCallbackAnswer s).callerMem = s.callerMem := by unfold usedCallbackAnswer; split <;> rfl
@[simp] theorem usedCallbackAnswer_cmdLog : (usedCallbackAnswer s).cmdLog = s.cmdLog := by unfold usedCallbackAnswer; split <;> rfl
@[simp] theorem usedCallbackAnswer_cbLog : (usedCallbackAnswer s).cbLog = s.cbLog := by unfold usedCallbackAnswer; split <;> rfl
@[simp] theorem usedCallbackAnswer_resultLog : (usedCallbackAnswer s).resultLog = s.resultLog := by unfold usedCallbackAnswer; split <;> rfl
@[simp] theorem usedCallbackAnswer_busLog : (usedCallbackAnswer s).busLog = s.busLog := by unfold usedCallbackAnswer; split <;> rfl
@[simp] theorem usedCallbackAnswer_bootCmdLog : (usedCallbackAnswer s).bootCmdLog = s.bootCmdLog := by unfold usedCallbackAnswer; split <;> rfl
@[simp] theorem usedCallbackAnswer_bootResultLog : (usedCallbackAnswer s).bootResultLog = s.bootResultLog := by unfold usedCallbackAnswer; split <;> rfl
@[simp] theorem usedCallbackAnswer_cfg : (usedCallbackAnswer s).cfg = s.cfg := by unfold usedCallbackAnswer; split <;> rfl
@[simp] theorem usedCallbackAnswer_schedule : (usedCallbackAnswer s).schedule = s.schedule := by unfold usedCallbackAnswer; split <;> rfl
@[simp] theorem usedCallbackAnswer_issue : (usedCallbackAnswer s).issue = s.issue := by unfold usedCallbackAnswer; split <;> rfl
end usedCallbackAnswer

end Sys2Proof.Machine
end

