-- ==== Sys2Proof/Laws/Memory.lean ====
section
/-! SUPPORT. Laws of the sparse lists and the memories over them: read after write, and that every write keeps the
canonical form (20_memory.md R70, R74). -/

namespace Sys2Proof.Machine

variable {α : Type}

/-! ### Sparse lists -/

@[simp] theorem Assoc.get_nil (a : Nat) : Assoc.get ([] : List (Nat × α)) a = none := rfl

/-- A key that is not listed has no value. -/
theorem Assoc.get_eq_none {m : List (Nat × α)} {a : Nat} (h : ∀ c ∈ m, c.1 ≠ a) : Assoc.get m a = none := by
  induction m with
  | nil => rfl
  | cons c m ih =>
    rw [Assoc.get, if_neg (h c List.mem_cons_self)]
    exact ih (fun d hd => h d (List.mem_cons_of_mem _ hd))

/-- A value read is one listed. -/
theorem Assoc.mem_of_get {m : List (Nat × α)} {a : Nat} {v : α} (h : Assoc.get m a = some v) : (a, v) ∈ m := by
  induction m with
  | nil => exact absurd h (by simp)
  | cons c m ih =>
    rw [Assoc.get] at h
    split at h
    · cases h; subst ‹_ = _›; exact List.mem_cons_self
    · exact List.mem_cons_of_mem _ (ih h)

/-- Listing a key leaves the others' values alone and gives the key its own. -/
theorem Assoc.get_put (m : List (Nat × α)) (a : Nat) (v : α) (b : Nat) :
    Assoc.get (Assoc.put m a v) b = if a = b then some v else Assoc.get m b := by
  induction m with
  | nil => simp [Assoc.put, Assoc.get]
  | cons c m ih =>
    rw [Assoc.put]
    split
    · rw [Assoc.get]
    · split
      · subst ‹a = c.1›; rw [Assoc.get, Assoc.get]; split <;> rfl
      · rw [Assoc.get, Assoc.get, ih]
        split
        · rw [if_neg (by omega)]
        · rfl

@[simp] theorem Assoc.get_put_self (m : List (Nat × α)) (a : Nat) (v : α) : Assoc.get (Assoc.put m a v) a = some v := by
  rw [Assoc.get_put, if_pos rfl]

theorem Assoc.get_put_ne (m : List (Nat × α)) {a b : Nat} (v : α) (h : b ≠ a) :
    Assoc.get (Assoc.put m a v) b = Assoc.get m b := by
  rw [Assoc.get_put, if_neg (Ne.symm h)]

/-- Listing a key twice keeps the last value. -/
@[simp] theorem Assoc.put_put (m : List (Nat × α)) (a : Nat) (v w : α) :
    Assoc.put (Assoc.put m a v) a w = Assoc.put m a w := by
  induction m with
  | nil => simp [Assoc.put]
  | cons c m ih =>
    rw [Assoc.put]
    split
    · rw [Assoc.put, if_neg (Nat.lt_irrefl a), if_pos rfl, Assoc.put, if_pos ‹_›]
    · split
      · rw [Assoc.put, if_neg (Nat.lt_irrefl a), if_pos rfl, Assoc.put, if_neg ‹_›, if_pos ‹_›]
      · rw [Assoc.put, if_neg ‹_›, if_neg ‹_›, ih, Assoc.put, if_neg ‹_›, if_neg ‹_›]

/-- What is listed after listing a key. -/
theorem Assoc.mem_put {m : List (Nat × α)} {a : Nat} {v : α} {c : Nat × α} (h : c ∈ Assoc.put m a v) :
    c = (a, v) ∨ c ∈ m := by
  induction m with
  | nil => simpa [Assoc.put] using h
  | cons d m ih =>
    rw [Assoc.put] at h
    split at h
    · simpa using h
    · split at h
      · rcases List.mem_cons.1 h with h | h
        · exact .inl h
        · exact .inr (List.mem_cons_of_mem _ h)
      · rcases List.mem_cons.1 h with h | h
        · exact .inr (h ▸ List.mem_cons_self)
        · exact (ih h).imp id (List.mem_cons_of_mem _)

/-- What is listed after unlisting a key was listed before. -/
theorem Assoc.mem_of_mem_drop {m : List (Nat × α)} {a : Nat} {c : Nat × α} (h : c ∈ Assoc.drop m a) : c ∈ m := by
  induction m with
  | nil => exact h
  | cons d m ih =>
    rw [Assoc.drop] at h
    split at h
    · exact List.mem_cons_of_mem _ h
    · rcases List.mem_cons.1 h with h | h
      · exact h ▸ List.mem_cons_self
      · exact List.mem_cons_of_mem _ (ih h)

/-- A rising list begins with its least key. -/
theorem Assoc.rising_cons {c : Nat × α} {m : List (Nat × α)} :
    Assoc.Rising (c :: m) ↔ (∀ d ∈ m, c.1 < d.1) ∧ Assoc.Rising m := by
  simp [Assoc.Rising, List.pairwise_cons]

theorem Assoc.rising_put {m : List (Nat × α)} (a : Nat) (v : α) (h : Assoc.Rising m) :
    Assoc.Rising (Assoc.put m a v) := by
  induction m with
  | nil => simp [Assoc.put, Assoc.Rising]
  | cons c m ih =>
    obtain ⟨h1, h2⟩ := Assoc.rising_cons.1 h
    rw [Assoc.put]
    split
    · refine Assoc.rising_cons.2 ⟨fun d hd => ?_, h⟩
      rcases List.mem_cons.1 hd with rfl | hd
      · assumption
      · exact Nat.lt_trans ‹a < c.1› (h1 d hd)
    · split
      · subst ‹a = c.1›; exact Assoc.rising_cons.2 ⟨h1, h2⟩
      · refine Assoc.rising_cons.2 ⟨fun d hd => ?_, ih h2⟩
        rcases Assoc.mem_put hd with rfl | hd
        · show c.1 < a; omega
        · exact h1 d hd

theorem Assoc.rising_drop {m : List (Nat × α)} (a : Nat) (h : Assoc.Rising m) : Assoc.Rising (Assoc.drop m a) := by
  induction m with
  | nil => exact h
  | cons c m ih =>
    obtain ⟨h1, h2⟩ := Assoc.rising_cons.1 h
    rw [Assoc.drop]
    split
    · exact h2
    · exact Assoc.rising_cons.2 ⟨fun d hd => h1 d (Assoc.mem_of_mem_drop hd), ih h2⟩

/-- Unlisting a key takes its value away and leaves the others' alone. -/
theorem Assoc.get_drop {m : List (Nat × α)} (a b : Nat) (h : Assoc.Rising m) :
    Assoc.get (Assoc.drop m a) b = if a = b then none else Assoc.get m b := by
  induction m with
  | nil => simp [Assoc.drop]
  | cons c m ih =>
    obtain ⟨h1, h2⟩ := Assoc.rising_cons.1 h
    rw [Assoc.drop]
    split
    · subst ‹c.1 = a›
      rw [Assoc.get]
      split
      · subst ‹c.1 = b›; exact Assoc.get_eq_none (fun d hd => (Nat.ne_of_lt (h1 d hd)).symm)
      · rfl
    · rw [Assoc.get, Assoc.get, ih h2]
      split
      · rw [if_neg (by omega)]
      · rfl

/-! ### Memories -/

/-- Read after write, at the place written and at every other. -/
theorem Memory.read_write {u : Option Byte} {m : List Host.Cell} (a : Nat) (b : Byte) (c : Nat)
    (h : Memory.wf u m) :
    Memory.read u (Memory.write u m a b) c = if a = c then some b else Memory.read u m c := by
  unfold Memory.read Memory.write
  by_cases hu : u = some b
  · rw [if_pos hu, Assoc.get_drop a c h.1]; by_cases hac : a = c <;> simp [hac, hu]
  · rw [if_neg hu, Assoc.get_put]; by_cases hac : a = c <;> simp [hac]

theorem Memory.wf_write {u : Option Byte} {m : List Host.Cell} (a : Nat) (b : Byte) (h : Memory.wf u m) :
    Memory.wf u (Memory.write u m a b) := by
  unfold Memory.write
  split
  · exact ⟨Assoc.rising_drop a h.1, fun c hc => h.2 c (Assoc.mem_of_mem_drop hc)⟩
  · refine ⟨Assoc.rising_put a b h.1, fun c hc => ?_⟩
    rcases Assoc.mem_put hc with rfl | hc
    · assumption
    · exact h.2 c hc

theorem Memory.wf_nil (u : Option Byte) : Memory.wf u [] := ⟨List.Pairwise.nil, by simp⟩

/-! ### The instance buffers (10_state.md R25) -/

/-- The canonical form of an instance buffer: sorted, and cells 0 to 255 only. -/
abbrev bufWf (buf : List Host.Cell) : Prop := Memory.wf bufferUnlisted buf ∧ ∀ c ∈ buf, c.1 < bufCap

theorem bufRead_eq_get (buf : List Host.Cell) (i : Nat) : bufRead buf i = Assoc.get buf i := by
  unfold bufRead Memory.read bufferUnlisted
  cases Assoc.get buf i <;> rfl

theorem bufWrite_eq_put {i : Nat} (h : i < bufCap) (buf : List Host.Cell) (b : Byte) :
    bufWrite buf i b = Assoc.put buf i b := by
  simp [bufWrite, h, Memory.write, bufferUnlisted]

/-- Read after write in an instance buffer. -/
theorem bufRead_bufWrite (buf : List Host.Cell) {i : Nat} (h : i < bufCap) (b : Byte) (j : Nat) :
    bufRead (bufWrite buf i b) j = if i = j then some b else bufRead buf j := by
  rw [bufWrite_eq_put h, bufRead_eq_get, bufRead_eq_get, Assoc.get_put]

/-- A write outside the 256 cells writes nothing. -/
theorem bufWrite_outside {i : Nat} (h : ¬ i < bufCap) (buf : List Host.Cell) (b : Byte) : bufWrite buf i b = buf := by
  simp [bufWrite, h]

theorem bufWf_bufWrite {buf : List Host.Cell} (i : Nat) (b : Byte) (h : bufWf buf) : bufWf (bufWrite buf i b) := by
  by_cases hi : i < bufCap
  · rw [bufWrite_eq_put hi]
    refine ⟨⟨Assoc.rising_put i b h.1.1, fun c hc => ?_⟩, fun c hc => ?_⟩
    · simp [bufferUnlisted]
    · rcases Assoc.mem_put hc with rfl | hc
      · exact hi
      · exact h.2 c hc
  · rwa [bufWrite_outside hi]

theorem bufWf_bufWriteList {buf : List Host.Cell} (i : Nat) (bs : List Byte) (h : bufWf buf) :
    bufWf (bufWriteList buf i bs) := by
  induction bs generalizing buf i with
  | nil => exact h
  | cons b bs ih => exact ih (i + 1) (bufWf_bufWrite i b h)

/-- The bytes written from a list are the list's, and every other cell reads as before. -/
theorem bufRead_bufWriteList (buf : List Host.Cell) (i : Nat) (bs : List Byte) (h : i + bs.length ≤ bufCap) (j : Nat) :
    bufRead (bufWriteList buf i bs) j =
      if i ≤ j ∧ j < i + bs.length then bs[j - i]? else bufRead buf j := by
  induction bs generalizing buf i with
  | nil => rw [if_neg (by simp)]; rfl
  | cons b bs ih =>
    rw [List.length_cons] at h
    rw [bufWriteList, ih (bufWrite buf i b) (i + 1) (by omega), bufRead_bufWrite buf (by omega), List.length_cons]
    by_cases hj : i = j
    · subst hj; simp
    · by_cases hr : i + 1 ≤ j ∧ j < i + 1 + bs.length
      · rw [if_pos hr, if_pos ⟨by omega, by omega⟩, show j - i = (j - (i + 1)) + 1 by omega, List.getElem?_cons_succ]
      · rw [if_neg hr, if_neg hj, if_neg (by omega)]

/-- A cell once written stays written (70_reset_and_hazards.md R363). -/
theorem bufWrite_isSome (buf : List Host.Cell) (i : Nat) (b : Byte) (j : Nat) (h : (bufRead buf j).isSome) :
    (bufRead (bufWrite buf i b) j).isSome := by
  by_cases hi : i < bufCap
  · rw [bufRead_bufWrite buf hi]; split <;> simp [h]
  · rwa [bufWrite_outside hi]

theorem bufWriteList_isSome (buf : List Host.Cell) (i : Nat) (bs : List Byte) (j : Nat) (h : (bufRead buf j).isSome) :
    (bufRead (bufWriteList buf i bs) j).isSome := by
  induction bs generalizing buf i with
  | nil => exact h
  | cons b bs ih => exact ih _ (i + 1) (bufWrite_isSome buf i b j h)

/-! ### The callers' memory -/

/-- Read after write in the callers' memory. -/
theorem callerByte_setCallerByte (s : State) (a : Nat) (b : Byte) (c : Nat)
    (h : Memory.wf callerUnlisted s.callerMem) :
    callerByte (setCallerByte a b s) c = if a = c then b else callerByte s c := by
  unfold callerByte setCallerByte
  rw [Memory.read_write a b c h]
  split <;> simp

theorem setCallerByte_wf (s : State) (a : Nat) (b : Byte) (h : Memory.wf callerUnlisted s.callerMem) :
    Memory.wf callerUnlisted (setCallerByte a b s).callerMem := Memory.wf_write a b h

/-- The memories of the reset state are canonical. -/
theorem reset_memoryWf : State.reset.memoryWf :=
  ⟨Memory.wf_nil _, fun c hc => absurd hc (by simp [State.reset]), Memory.wf_nil _,
   fun c hc => absurd hc (by simp [State.reset]), Memory.wf_nil _⟩

end Sys2Proof.Machine
end

