-- ==== Sys2Proof/Laws/Callers.lean ====
section
/-! SUPPORT. Laws of the callers' records and of the operations that change one caller's record: entering a call, going
to a sub-step, returning, taking the lock (10_state.md R38; 42_master_caller.md R190, R191). -/

namespace Sys2Proof.Machine

variable (s : State) (a : Nat)

/-! ### Reading a record after writing one -/

/-- A record that is not the idle one is listed, and read back. -/
theorem getCaller_setCaller {c : Caller} (h : c ≠ Caller.idle) (b : Nat) :
    getCaller (setCaller a c s) b = if a = b then c else getCaller s b := by
  rw [getCaller, setCaller_callers, if_neg h, Assoc.get_put]
  split <;> simp [getCaller]

/-- Writing a record twice keeps the last one. -/
theorem setCaller_setCaller {c d : Caller} (hc : c ≠ Caller.idle) (hd : d ≠ Caller.idle) :
    setCaller a d (setCaller a c s) = setCaller a d s := by
  simp [setCaller, hc, hd]

/-- A record depends on the callers' list alone. -/
theorem getCaller_congr {s t : State} (h : t.callers = s.callers) (b : Nat) : getCaller t b = getCaller s b := by
  rw [getCaller, getCaller, h]

theorem callersWf_setCaller {c : Caller} (hc : c ≠ Caller.idle) (h : s.callersWf) : (setCaller a c s).callersWf := by
  refine ⟨?_, fun d hd => ?_⟩
  · rw [setCaller_callers, if_neg hc]; exact Assoc.rising_put a c h.1
  · rw [setCaller_callers, if_neg hc] at hd
    rcases Assoc.mem_put hd with rfl | hd
    · exact hc
    · exact h.2 d hd

/-! ### Records that are not the idle one -/

theorem entered_ne_idle (op : EntryPoint) (n : Nat) (args : CallArgs) (r : Option ErrorKind)
    (o : Option Frame := none) :
    ({ op := some op, pc := n, args := args, result := r, outer := o } : Caller) ≠ Caller.idle := by
  simp [Caller.idle]

/-- A record after a return is not the idle one. -/
theorem afterReturn_ne_idle (outer : Option Frame) (kind : ErrorKind) : afterReturn outer kind ≠ Caller.idle := by
  cases outer <;> simp [afterReturn, Caller.idle]

/-- A caller in no operation interrupts none. -/
theorem callFrame_free {c : Caller} (h : c.op = none) : callFrame c = none := by simp [callFrame, h]

theorem returned_ne_idle (kind : ErrorKind) :
    ({ op := none, pc := 0, args := .none, result := some kind } : Caller) ≠ Caller.idle := by
  simp [Caller.idle]

theorem withPc_ne_idle {c : Caller} (n : Nat) (h : c.op ≠ none) : ({ c with pc := n } : Caller) ≠ Caller.idle := by
  intro he
  exact h (by rw [Caller.idle] at he; exact congrArg Caller.op he)

/-- A caller may call when it is in no operation, or when it holds the lock, has called once and is not between the arm
and the wake of its transfer (R190, R194). -/
theorem callerBusy_eq_false_iff :
    callerBusy s a = false ↔
      (getCaller s a).op = none ∨
      (s.lock = .held a ∧ (getCaller s a).outer = none ∧
        ¬((getCaller s a).op = some .transfer ∧ (getCaller s a).pc = 5)) := by
  unfold callerBusy callFrame
  cases h : (getCaller s a).op <;> simp [awaitsSignal, and_assoc]

/-! ### The operations on a record -/

/-- The caller is in the entry point, at sub-step 1; the operation it was in waits. -/
theorem getCaller_enterCall (op : EntryPoint) (args : CallArgs) (b : Nat) :
    getCaller (enterCall a op args s) b =
      if a = b then
        { op := some op, pc := 1, args := args, result := none, outer := callFrame (getCaller s a) }
      else getCaller s b :=
  getCaller_setCaller s a (entered_ne_idle op 1 args none _) b

/-- A caller inside an operation goes to another sub-step of it. -/
theorem getCaller_setPc {n : Nat} (h : (getCaller s a).op ≠ none) (b : Nat) :
    getCaller (setPc a n s) b = if a = b then { getCaller s a with pc := n } else getCaller s b :=
  getCaller_setCaller s a (withPc_ne_idle n h) b

/-- The operation has returned, to the one it interrupted if it interrupted one. -/
theorem getCaller_returnCall (op : EntryPoint) (kind : ErrorKind) (b : Nat) :
    getCaller (returnCall a op kind s) b =
      if a = b then afterReturn (getCaller s a).outer kind else getCaller s b :=
  getCaller_setCaller s a (afterReturn_ne_idle _ kind) b

/-- Writing a record in the step that entered the call leaves that record. -/
theorem setCaller_enterCall {c : Caller} (op : EntryPoint) (args : CallArgs) (hc : c ≠ Caller.idle) :
    setCaller a c (enterCall a op args s) = setCaller a c s :=
  setCaller_setCaller s a (entered_ne_idle op 1 args none _) hc

/-- Going on to a sub-step in the step that entered the call leaves the record at that sub-step. -/
theorem setPc_enterCall (op : EntryPoint) (args : CallArgs) (n : Nat) :
    setPc a n (enterCall a op args s) =
      setCaller a
        { op := some op, pc := n, args := args, result := none, outer := callFrame (getCaller s a) } s := by
  rw [setPc, getCaller_enterCall, if_pos rfl]
  exact setCaller_enterCall s a op args (entered_ne_idle op n args none _)

/-- Returning in the step that entered the call leaves the return. -/
theorem returnCall_enterCall (op op' : EntryPoint) (args : CallArgs) (kind : ErrorKind) :
    returnCall a op' kind (enterCall a op args s) =
      setCaller a (afterReturn (callFrame (getCaller s a)) kind)
        { s with resultLog := s.resultLog ++ [{ caller := a, op := op', kind := kind }] } := by
  unfold returnCall
  rw [getCaller_enterCall, if_pos rfl, setCaller_enterCall s a op args (afterReturn_ne_idle _ kind)]
  rfl

/-- An operation that interrupted none returns with its result and the caller is inside no operation. -/
theorem returnCall_outermost (op : EntryPoint) (kind : ErrorKind) (h : (getCaller s a).outer = none) :
    returnCall a op kind s =
      setCaller a { op := none, pc := 0, args := .none, result := some kind }
        { s with resultLog := s.resultLog ++ [{ caller := a, op := op, kind := kind }] } := by
  rw [returnCall, h]
  rfl

/-- The lock is taken when it is free, else nothing happens (R190). -/
theorem acquire_cases :
    (s.lock = .free ∧ acquire a s = setPc a 2 { s with lock := .held a }) ∨
    ((∃ b, s.lock = .held b) ∧ acquire a s = s) := by
  unfold acquire
  cases h : s.lock with
  | free => exact .inl ⟨rfl, rfl⟩
  | held b => exact .inr ⟨⟨b, rfl⟩, rfl⟩

/-- A lock wait expires only while the lock is held, and then returns `Busy` (R190). -/
theorem lockExpire_cases (op : EntryPoint) :
    (s.lock = .free ∧ lockExpire a op s = s) ∨
    ((∃ b, s.lock = .held b) ∧ lockExpire a op s = returnCall a op .busy s) := by
  unfold lockExpire
  cases h : s.lock with
  | free => exact .inl ⟨rfl, rfl⟩
  | held b => exact .inr ⟨⟨b, rfl⟩, rfl⟩

end Sys2Proof.Machine
end

