-- ==== Sys2Proof/Laws/Encoding.lean ====
section
/-! SUPPORT. The fields of an operation word, read back after packing, and packed back after reading (30_encoding.md
R108). -/

namespace Sys2Proof

/-- The upper part of a concatenation. -/
theorem extract_append_left {m n : Nat} (x : BitVec m) (y : BitVec n) : (x ++ y).extractLsb' n m = x :=
  BitVec.extractLsb'_append_eq_left

/-- The lower part of a concatenation. -/
theorem extract_append_right {m n : Nat} (x : BitVec m) (y : BitVec n) : (x ++ y).extractLsb' 0 n = y :=
  BitVec.extractLsb'_append_eq_right

/-- A field read in two goes. -/
theorem extract_extract {k : Nat} (x : BitVec k) (i m j n : Nat) (h : j + n ≤ m) :
    (x.extractLsb' i m).extractLsb' j n = x.extractLsb' (i + j) n := by
  ext t ht
  rw [BitVec.getElem_extractLsb', BitVec.getLsbD_extractLsb', BitVec.getElem_extractLsb', Nat.add_assoc]
  simp [show j + t < m by omega]

/-- Two neighbouring fields put together again. -/
theorem extract_join {k : Nat} (x : BitVec k) (i m n : Nat) :
    x.extractLsb' (i + n) m ++ x.extractLsb' i n = x.extractLsb' i (m + n) := by
  ext t ht
  rw [BitVec.getElem_append, BitVec.getElem_extractLsb']
  split
  · rw [BitVec.getElem_extractLsb']
  · rw [BitVec.getElem_extractLsb', show i + n + (t - n) = i + t by omega]

variable (op a8 : BitVec 8) (a16 : BitVec 16) (a24 : BitVec 24) (w : OpWord)

@[simp] theorem opcode_append : OpWord.opcode (op ++ a24) = op := extract_append_left op a24
@[simp] theorem a24_append : OpWord.a24 (op ++ a24) = a24 := extract_append_right op a24

/-- The three fields as an opcode and a 24-bit argument. -/
theorem packWord_eq : packWord op a8 a16 = op ++ (a8 ++ a16) := BitVec.append_assoc

@[simp] theorem opcode_packWord : OpWord.opcode (packWord op a8 a16) = op := by
  rw [packWord_eq]; exact opcode_append op (a8 ++ a16)

@[simp] theorem a16_packWord : OpWord.a16 (packWord op a8 a16) = a16 := extract_append_right (op ++ a8) a16

@[simp] theorem a24_packWord : OpWord.a24 (packWord op a8 a16) = a8 ++ a16 := by
  rw [packWord_eq]; exact a24_append op (a8 ++ a16)

/-- `a8` is the upper byte of the 24-bit argument, `a16` the rest. -/
theorem a8_eq : OpWord.a8 w = (OpWord.a24 w).extractLsb' 16 8 := (extract_extract w 0 24 16 8 (by omega)).symm
theorem a16_eq : OpWord.a16 w = (OpWord.a24 w).extractLsb' 0 16 := (extract_extract w 0 24 0 16 (by omega)).symm

@[simp] theorem a8_packWord : OpWord.a8 (packWord op a8 a16) = a8 := by
  rw [a8_eq, a24_packWord]; exact extract_append_left a8 a16

@[simp] theorem a8_append : OpWord.a8 (op ++ a24) = a24.extractLsb' 16 8 := by rw [a8_eq, a24_append]
@[simp] theorem a16_append : OpWord.a16 (op ++ a24) = a24.extractLsb' 0 16 := by rw [a16_eq, a24_append]

/-- A word is its opcode and its 24-bit argument. -/
theorem opcode_a24 : OpWord.opcode w ++ OpWord.a24 w = w := by
  refine (extract_join w 0 8 24).trans ?_
  ext t ht
  rw [BitVec.getElem_extractLsb', Nat.zero_add, BitVec.getLsbD_eq_getElem]

/-- The 24-bit argument is its upper byte and its lower half. -/
theorem a8_a16 : OpWord.a8 w ++ OpWord.a16 w = OpWord.a24 w := by
  rw [a8_eq, a16_eq]
  refine (extract_join (OpWord.a24 w) 0 8 16).trans ?_
  ext t ht
  rw [BitVec.getElem_extractLsb', Nat.zero_add, BitVec.getLsbD_eq_getElem]

/-- A word is its three fields. -/
theorem packWord_fields : packWord (OpWord.opcode w) (OpWord.a8 w) (OpWord.a16 w) = w := by
  rw [packWord_eq, a8_a16]
  exact opcode_a24 w

/-- One bit as a truth value and back. -/
@[simp] theorem bitOf_ofBool (b : Bool) : bitOf (BitVec.ofBool b) = b := by cases b <;> rfl
@[simp] theorem ofBool_bitOf (b : BitVec 1) : BitVec.ofBool (bitOf b) = b := by revert b; decide

end Sys2Proof
end

