-- ==== Sys2Proof/Laws/Rows.lean ====
section
/-! SUPPORT. When each handler row fires, bit by bit (30_encoding.md R105 to R107), and the bits of the status
snapshot. -/

namespace Sys2Proof.Machine

/-! ### The snapshot's bits (R105) -/

theorem snapshotOf_bits : ∀ (xmit dr ber nack stall am sstop dmac hwto : Bool),
    let w := snapshotOf xmit ⟨dr, ber, nack, stall, am, sstop, dmac, hwto⟩
    w[0] = dr ∧ w[1] = ber ∧ w[2] = nack ∧ w[3] = stall ∧ w[4] = am ∧ w[5] = sstop ∧ w[6] = dmac ∧ w[7] = hwto ∧
      w[8] = xmit := by
  decide

section snapshotBits
variable (xmit : Bool) (x : Flags)

@[simp] theorem snapshotOf_dr : (snapshotOf xmit x)[0] = x.dr :=
  (snapshotOf_bits xmit x.dr x.ber x.nack x.stall x.am x.sstop x.dmac x.hwto).1
@[simp] theorem snapshotOf_ber : (snapshotOf xmit x)[1] = x.ber :=
  (snapshotOf_bits xmit x.dr x.ber x.nack x.stall x.am x.sstop x.dmac x.hwto).2.1
@[simp] theorem snapshotOf_nack : (snapshotOf xmit x)[2] = x.nack :=
  (snapshotOf_bits xmit x.dr x.ber x.nack x.stall x.am x.sstop x.dmac x.hwto).2.2.1
@[simp] theorem snapshotOf_stall : (snapshotOf xmit x)[3] = x.stall :=
  (snapshotOf_bits xmit x.dr x.ber x.nack x.stall x.am x.sstop x.dmac x.hwto).2.2.2.1
@[simp] theorem snapshotOf_am : (snapshotOf xmit x)[4] = x.am :=
  (snapshotOf_bits xmit x.dr x.ber x.nack x.stall x.am x.sstop x.dmac x.hwto).2.2.2.2.1
@[simp] theorem snapshotOf_sstop : (snapshotOf xmit x)[5] = x.sstop :=
  (snapshotOf_bits xmit x.dr x.ber x.nack x.stall x.am x.sstop x.dmac x.hwto).2.2.2.2.2.1
@[simp] theorem snapshotOf_dmac : (snapshotOf xmit x)[6] = x.dmac :=
  (snapshotOf_bits xmit x.dr x.ber x.nack x.stall x.am x.sstop x.dmac x.hwto).2.2.2.2.2.2.1
@[simp] theorem snapshotOf_hwto : (snapshotOf xmit x)[7] = x.hwto :=
  (snapshotOf_bits xmit x.dr x.ber x.nack x.stall x.am x.sstop x.dmac x.hwto).2.2.2.2.2.2.2.1
@[simp] theorem snapshotOf_xmit : (snapshotOf xmit x)[8] = xmit :=
  (snapshotOf_bits xmit x.dr x.ber x.nack x.stall x.am x.sstop x.dmac x.hwto).2.2.2.2.2.2.2.2

end snapshotBits

/-- The acknowledge mask has the snapshot's flag bits and no direction bit. -/
@[simp] theorem flagMask_bit (snap : Snapshot) {i : Nat} (h : i < 8) : (flagMask snap)[i] = snap[i] := by
  simp [flagMask, BitVec.getLsbD_eq_getElem (show i < 9 by omega)]

/-- Acknowledging the snapshot of the flags themselves clears them all. -/
@[simp] theorem ack_snapshotOf (xmit : Bool) (x : Flags) : x.ack (flagMask (snapshotOf xmit x)) = Flags.clear := by
  simp [Flags.ack, Flags.clear]

/-- Acknowledging every flag clears them all (45_dispatcher.md R314). -/
@[simp] theorem ack_all (x : Flags) : x.ack 0xFF#8 = Flags.clear := by
  simp [Flags.ack, Flags.clear]

/-- A flag that is clear stays clear under any acknowledge. -/
@[simp] theorem ack_clear (m : Byte) : Flags.clear.ack m = Flags.clear := by
  simp [Flags.ack, Flags.clear]

/-! ### A key's head and its snapshot are tested apart -/

theorem covers_packKey (r : Row) (role : Role) (p : Phase) (snap : Snapshot) :
    r.covers (packKey role p snap) =
      (((role.bit ++ p.code ++ 0#3) &&& r.keyMask.extractLsb' 9 7 == r.keyMatch.extractLsb' 9 7) &&
       (snap &&& r.keyMask.extractLsb' 0 9 == r.keyMatch.extractLsb' 0 9)) := by
  have hsplit : ∀ k : KeyWord, k = k.extractLsb' 9 7 ++ k.extractLsb' 0 9 := by
    intro k
    apply BitVec.eq_of_getLsbD_eq
    intro i hi
    rw [BitVec.getLsbD_append]
    by_cases h : i < 9
    · simp [h]
    · simp only [h, decide_false, BitVec.getLsbD_extractLsb']
      rw [show 9 + (i - 9) = i by omega]
      simp [show i - 9 < 7 by omega]
  rw [Bool.eq_iff_iff]
  simp only [Row.covers, packKey, beq_iff_eq, Bool.and_eq_true]
  constructor
  · intro h
    have h1 := congrArg (fun k : KeyWord => k.extractLsb' 9 7) h
    have h0 := congrArg (fun k : KeyWord => k.extractLsb' 0 9) h
    simp only [BitVec.extractLsb'_and] at h1 h0
    rw [BitVec.extractLsb'_append_eq_left] at h1
    rw [BitVec.extractLsb'_append_eq_right] at h0
    exact ⟨h1, h0⟩
  · rintro ⟨h1, h0⟩
    rw [hsplit r.keyMask, hsplit r.keyMatch, BitVec.and_append, h1, h0]

/-! ### One bit of a snapshot under a mask -/

theorem snap_bit0 : ∀ snap : Snapshot, (snap &&& 0x001#9 == 0x001#9) = snap[0] := by decide
theorem snap_bit1 : ∀ snap : Snapshot, (snap &&& 0x002#9 == 0x002#9) = snap[1] := by decide
theorem snap_bit2 : ∀ snap : Snapshot, (snap &&& 0x004#9 == 0x004#9) = snap[2] := by decide
theorem snap_bit3 : ∀ snap : Snapshot, (snap &&& 0x008#9 == 0x008#9) = snap[3] := by decide
theorem snap_bit5 : ∀ snap : Snapshot, (snap &&& 0x020#9 == 0x020#9) = snap[5] := by decide
theorem snap_bit6 : ∀ snap : Snapshot, (snap &&& 0x040#9 == 0x040#9) = snap[6] := by decide
theorem snap_bit7 : ∀ snap : Snapshot, (snap &&& 0x080#9 == 0x080#9) = snap[7] := by decide
theorem snap_am_tx : ∀ snap : Snapshot,
    (snap &&& 0x110#9 == 0x110#9) = (snap[4] && snap[8]) := by decide
theorem snap_am_rx : ∀ snap : Snapshot,
    (snap &&& 0x110#9 == 0x010#9) = (snap[4] && !snap[8]) := by decide

/-! ### Each row fires on its flag, in its state, under its guard (R107) -/

section rows
variable (snap : Snapshot) (s : State)

/-- A row fires when its head, its snapshot bits and its guard hold. -/
theorem rowFires_eq (r : Row) (head bits : Bool)
    (hh : ((r.role.bit ++ (livePhase r.role s).code ++ 0#3) &&& r.keyMask.extractLsb' 9 7 ==
      r.keyMatch.extractLsb' 9 7) = head)
    (hb : (snap &&& r.keyMask.extractLsb' 0 9 == r.keyMatch.extractLsb' 0 9) = bits) :
    rowFires r snap s = ((head && bits) && guardHolds r.guard s) := by
  rw [rowFires, covers_packKey, hh, hb]

/-- A head whose mask looks at the role alone. -/
theorem head_any_master : ∀ p : Phase,
    ((Role.master.bit ++ p.code ++ 0#3) &&& 0x40#7 == 0x00#7) = true := by intro p; cases p <;> rfl

theorem head_any_slave : ∀ p : Phase,
    ((Role.slave.bit ++ p.code ++ 0#3) &&& 0x40#7 == 0x40#7) = true := by intro p; cases p <;> rfl

/-- A head whose mask looks at the role and the state. -/
theorem head_start_master (p : Phase) :
    ((Role.master.bit ++ p.code ++ 0#3) &&& 0x78#7 == 0x08#7) = decide (p = .start) := by cases p <;> rfl

theorem head_write_master (p : Phase) :
    ((Role.master.bit ++ p.code ++ 0#3) &&& 0x78#7 == 0x10#7) = decide (p = .write) := by cases p <;> rfl

theorem head_read_master (p : Phase) :
    ((Role.master.bit ++ p.code ++ 0#3) &&& 0x78#7 == 0x18#7) = decide (p = .read) := by cases p <;> rfl

theorem head_quick_master (p : Phase) :
    ((Role.master.bit ++ p.code ++ 0#3) &&& 0x78#7 == 0x20#7) = decide (p = .quick) := by cases p <;> rfl

theorem head_write_slave (p : Phase) :
    ((Role.slave.bit ++ p.code ++ 0#3) &&& 0x78#7 == 0x50#7) = decide (p = .write) := by cases p <;> rfl

@[simp] theorem rowFires_mHwto :
    rowFires rowMHwto snap s = (snap[7] && s.cfg.hwTimeout.isSome) := by
  rw [rowFires_eq snap s rowMHwto _ _ (head_any_master s.masterState) (snap_bit7 snap)]
  simp [rowMHwto, guardHolds]

@[simp] theorem rowFires_mNack :
    rowFires rowMNack snap s = (snap[2]) := by
  rw [rowFires_eq snap s rowMNack _ _ (head_any_master s.masterState) (snap_bit2 snap)]
  simp [rowMNack, guardHolds]

@[simp] theorem rowFires_mBer :
    rowFires rowMBer snap s = (snap[1]) := by
  rw [rowFires_eq snap s rowMBer _ _ (head_any_master s.masterState) (snap_bit1 snap)]
  simp [rowMBer, guardHolds]

@[simp] theorem rowFires_mDrStartQuick :
    rowFires rowMDrStartQuick snap s = ((decide (s.masterState = .start) && snap[0]) && (decide (s.txCount = 0) && decide (s.rxCount = 0))) := by
  rw [rowFires_eq snap s rowMDrStartQuick _ _ (head_start_master s.masterState) (snap_bit0 snap)]
  simp [rowMDrStartQuick, guardHolds]

@[simp] theorem rowFires_mDrStartRead :
    rowFires rowMDrStartRead snap s = ((decide (s.masterState = .start) && snap[0]) && (decide (s.txCount = 0) && decide (0 < s.rxCount))) := by
  rw [rowFires_eq snap s rowMDrStartRead _ _ (head_start_master s.masterState) (snap_bit0 snap)]
  simp [rowMDrStartRead, guardHolds]

@[simp] theorem rowFires_mDrStartWrite :
    rowFires rowMDrStartWrite snap s = ((decide (s.masterState = .start) && snap[0]) && decide (0 < s.txCount)) := by
  rw [rowFires_eq snap s rowMDrStartWrite _ _ (head_start_master s.masterState) (snap_bit0 snap)]
  simp [rowMDrStartWrite, guardHolds]

@[simp] theorem rowFires_mDrWrite :
    rowFires rowMDrWrite snap s = (decide (s.masterState = .write) && snap[0]) := by
  rw [rowFires_eq snap s rowMDrWrite _ _ (head_write_master s.masterState) (snap_bit0 snap)]
  simp [rowMDrWrite, guardHolds]

@[simp] theorem rowFires_mStallRead :
    rowFires rowMStallRead snap s = (decide (s.masterState = .read) && snap[3]) := by
  rw [rowFires_eq snap s rowMStallRead _ _ (head_read_master s.masterState) (snap_bit3 snap)]
  simp [rowMStallRead, guardHolds]

@[simp] theorem rowFires_mStallQuick :
    rowFires rowMStallQuick snap s = (decide (s.masterState = .quick) && snap[3]) := by
  rw [rowFires_eq snap s rowMStallQuick _ _ (head_quick_master s.masterState) (snap_bit3 snap)]
  simp [rowMStallQuick, guardHolds]

@[simp] theorem rowFires_mDmaWriteStop :
    rowFires rowMDmaWriteStop snap s = ((decide (s.masterState = .write) && snap[6]) && decide (s.rxCount = 0)) := by
  rw [rowFires_eq snap s rowMDmaWriteStop _ _ (head_write_master s.masterState) (snap_bit6 snap)]
  simp [rowMDmaWriteStop, guardHolds]

@[simp] theorem rowFires_mDmaWriteRestart :
    rowFires rowMDmaWriteRestart snap s = ((decide (s.masterState = .write) && snap[6]) && decide (0 < s.rxCount)) := by
  rw [rowFires_eq snap s rowMDmaWriteRestart _ _ (head_write_master s.masterState) (snap_bit6 snap)]
  simp [rowMDmaWriteRestart, guardHolds]

@[simp] theorem rowFires_mDmaRead :
    rowFires rowMDmaRead snap s = (decide (s.masterState = .read) && snap[6]) := by
  rw [rowFires_eq snap s rowMDmaRead _ _ (head_read_master s.masterState) (snap_bit6 snap)]
  simp [rowMDmaRead, guardHolds]

@[simp] theorem rowFires_sHwto :
    rowFires rowSHwto snap s = (snap[7] && s.cfg.hwTimeout.isSome) := by
  rw [rowFires_eq snap s rowSHwto _ _ (head_any_slave s.slaveState) (snap_bit7 snap)]
  simp [rowSHwto, guardHolds]

@[simp] theorem rowFires_sBer :
    rowFires rowSBer snap s = (snap[1]) := by
  rw [rowFires_eq snap s rowSBer _ _ (head_any_slave s.slaveState) (snap_bit1 snap)]
  simp [rowSBer, guardHolds]

@[simp] theorem rowFires_sDmaRx :
    rowFires rowSDmaRx snap s = (decide (s.slaveState = .write) && snap[6]) := by
  rw [rowFires_eq snap s rowSDmaRx _ _ (head_write_slave s.slaveState) (snap_bit6 snap)]
  simp [rowSDmaRx, guardHolds]

@[simp] theorem rowFires_sAmTx :
    rowFires rowSAmTx snap s = (snap[4] && snap[8]) := by
  rw [rowFires_eq snap s rowSAmTx _ _ (head_any_slave s.slaveState) (snap_am_tx snap)]
  simp [rowSAmTx, guardHolds]

@[simp] theorem rowFires_sAmRx :
    rowFires rowSAmRx snap s = (snap[4] && !snap[8]) := by
  rw [rowFires_eq snap s rowSAmRx _ _ (head_any_slave s.slaveState) (snap_am_rx snap)]
  simp [rowSAmRx, guardHolds]

@[simp] theorem rowFires_sDrOverflow :
    rowFires rowSDrOverflow snap s = (decide (s.slaveState = .write) && snap[0]) := by
  rw [rowFires_eq snap s rowSDrOverflow _ _ (head_write_slave s.slaveState) (snap_bit0 snap)]
  simp [rowSDrOverflow, guardHolds]

@[simp] theorem rowFires_sDrFill :
    rowFires rowSDrFill snap s = (snap[0] && decide (s.slaveState ≠ .write)) := by
  rw [rowFires_eq snap s rowSDrFill _ _ (head_any_slave s.slaveState) (snap_bit0 snap)]
  simp [rowSDrFill, guardHolds]

@[simp] theorem rowFires_sStop :
    rowFires rowSStop snap s = (snap[5]) := by
  rw [rowFires_eq snap s rowSStop _ _ (head_any_slave s.slaveState) (snap_bit5 snap)]
  simp [rowSStop, guardHolds]

end rows

end Sys2Proof.Machine
end

