-- ==== Sys2Proof/Laws/Engine.lean ====
section
/-! SUPPORT. What the two engines can do, said once: the inductions over event groups, over FLUSH and over the reply
prefill, and the frame that every part of an interrupt invocation keeps (43_master_engine.md R220, 44_slave_engine.md
R265, 45_dispatcher.md R310). -/

namespace Sys2Proof.Machine

/-! ### Commands in sequence -/

@[simp] theorem clearDma_clearStatus (x : Flags) : x.clearStatus.clearDma = Flags.clear := rfl

/-- ABORT: a stop, every flag cleared, and four log entries (30_encoding.md R117). -/
theorem abort_eq (s : State) :
    abort s =
      { s with
        hw := { s.hw with stop := true, flags := Flags.clear },
        cmdLog := s.cmdLog ++
          [{ word := encodeWord .hwStop, thresholds := none, result := none },
           { word := encodeWord .hwClearStatus, thresholds := none, result := none },
           { word := encodeWord .hwWaitBusFree, thresholds := none,
             result := some (.spins (spinResult s.cfg.busFreeSpinBound s.hw.busBusy)) },
           { word := encodeWord .hwClearDma, thresholds := none, result := none }] } := by
  simp [abort, hwClearDma, hwWaitBusFree, hwClearStatus, hwStop, logCmd, setHw]

/-- The armed length is in 0..256 (10_state.md R42). -/
theorem dmaLength_le (n : BitVec 16) : dmaLength n ≤ bufCap := by
  unfold dmaLength
  split
  · assumption
  · exact Nat.le_of_lt_succ (Config.dmaLength n).isLt

/-- A length of at most 256 is armed as it is (40_hw_commands.md R135, R136). -/
theorem dmaLength_eq {n : BitVec 16} (h : n.toNat ≤ bufCap) : dmaLength n = n.toNat := if_pos h

theorem dmaLength_ofNat {n : Nat} (h : n ≤ bufCap) : dmaLength (BitVec.ofNat 16 n) = n := by
  have hn : (BitVec.ofNat 16 n).toNat = n := by
    rw [BitVec.toNat_ofNat]; exact Nat.mod_eq_of_lt (Nat.lt_of_le_of_lt h (by decide))
  rw [dmaLength_eq (by rw [hn]; exact h), hn]

/-- Reading an unsupplied byte twice gives the same byte (20_memory.md R76). -/
theorem dataByte_hwReadData (s : State) : dataByte (hwReadData s) = dataByte s := rfl

/-- Every test of one wait sees the same bus, so a free bus is found at the first (40_hw_commands.md R141). -/
theorem spinCount_free (bound : Nat) : spinCount false bound = 0 := by cases bound <;> rfl

theorem spinCount_busy (bound : Nat) : spinCount true bound = bound := by
  induction bound with
  | zero => rfl
  | succ n ih => simp [spinCount, ih]

theorem spinResult_free (bound : Nat) : spinResult bound false = .free 0 := by simp [spinResult, spinCount_free]

/-! ### Event groups -/

variable {α β : Type}

@[simp] theorem bind_go (a : α) (s : State) (f : α → State → Flow β) : (Flow.go a s).bind f = f a s := rfl
@[simp] theorem bind_done (s : State) (f : α → State → Flow β) : (Flow.done s : Flow α).bind f = .done s := rfl
@[simp] theorem bind_halt (s : State) (f : α → State → Flow β) : (Flow.halt s : Flow α).bind f = .halt s := rfl
@[simp] theorem state_go (a : α) (s : State) : (Flow.go a s).state = s := rfl
@[simp] theorem state_done (s : State) : (Flow.done s : Flow α).state = s := rfl
@[simp] theorem state_halt (s : State) : (Flow.halt s : Flow α).state = s := rfl

/-- A property that a part has and the next part keeps holds of both in sequence. -/
theorem bind_keeps {P : State → Prop} {x : Flow α} {f : α → State → Flow β} (hx : P x.state)
    (hf : ∀ a s, x = .go a s → P s → P (f a s).state) : P (x.bind f).state := by
  cases x with
  | go a s => exact hf a s rfl hx
  | done s => exact hx
  | halt s => exact hx

/-- The masters' groups hold exactly the rows of the table that belong to them, in order (30_encoding.md R107). -/
theorem masterGroups_rows : (masterGroups.flatten.map Prod.fst) ++ (slaveGroups.flatten.map Prod.fst) = rowTable := rfl

theorem runGroup_some {snap : Snapshot} {g : List (Row × (State → Flow Unit))} {s : State}
    {h : Row × (State → Flow Unit)} (hf : g.find? (fun h => rowFires h.1 snap s) = some h) :
    runGroup snap g s = h.2 s := by
  simp only [runGroup, hf]

theorem runGroup_none {snap : Snapshot} {g : List (Row × (State → Flow Unit))} {s : State}
    (hf : g.find? (fun h => rowFires h.1 snap s) = none) : runGroup snap g s = .go () s := by
  simp only [runGroup, hf]

theorem masterGroups_flatten :
    masterGroups.flatten =
      [(rowMHwto, mHwto), (rowMNack, mNack), (rowMBer, mBer), (rowMDrStartQuick, mDrStartQuick),
       (rowMDrStartRead, mDrStartRead), (rowMDrStartWrite, mDrStartWrite), (rowMDrWrite, mDrWrite),
       (rowMStallRead, mStallRead), (rowMStallQuick, mStallQuick), (rowMDmaWriteStop, mDmaWriteStop),
       (rowMDmaWriteRestart, mDmaWriteRestart), (rowMDmaRead, mDmaRead)] := rfl

theorem slaveGroups_flatten :
    slaveGroups.flatten =
      [(rowSHwto, sHwto), (rowSBer, sBer), (rowSDmaRx, sDmaRx), (rowSAmTx, sAmTx), (rowSAmRx, sAmRx),
       (rowSDrOverflow, sDrOverflow), (rowSDrFill, sDrFill), (rowSStop, sStop)] := rfl

/-- The dispatcher routes to the master engine exactly when its state is not Idle (45_dispatcher.md R311). -/
theorem routedTo_master (s : State) : routedTo .master s = true ↔ s.masterState ≠ .idle := by
  rw [routedTo, decide_eq_true_eq]

/-- It routes to the slave engine exactly when the master is Idle, a slave is registered and not Idle (R311). -/
theorem routedTo_slave (s : State) :
    routedTo .slave s = true ↔ s.masterState = .idle ∧ s.slaveConfig.isSome ∧ s.slaveState ≠ .idle := by
  rw [routedTo, Bool.and_eq_true, Bool.and_eq_true, decide_eq_true_eq, decide_eq_true_eq, and_assoc]

/-- One row of a group fires and runs, or none does and nothing happens (43_master_engine.md R220). -/
theorem runGroup_cases (snap : Snapshot) (g : List (Row × (State → Flow Unit))) (s : State) :
    (∃ h ∈ g, rowFires h.1 snap s = true ∧ runGroup snap g s = h.2 s) ∨
    ((∀ h ∈ g, rowFires h.1 snap s = false) ∧ runGroup snap g s = .go () s) := by
  rcases Option.eq_none_or_eq_some (g.find? (fun h => rowFires h.1 snap s)) with hf | ⟨h, hf⟩
  · refine .inr ⟨fun h hh => ?_, runGroup_none hf⟩
    exact Bool.eq_false_iff.2 (List.find?_eq_none.1 hf h hh)
  · refine .inl ⟨h, List.mem_of_find?_eq_some hf, ?_, runGroup_some hf⟩
    have hfire := List.find?_some hf
    exact hfire

/-- A property that every firing row keeps is kept by the engine. -/
theorem runGroups_keeps {P : State → Prop} (snap : Snapshot) (gs : List (List (Row × (State → Flow Unit))))
    (hrow : ∀ h ∈ gs.flatten, ∀ s, P s → rowFires h.1 snap s = true → P (h.2 s).state) (s : State) (hs : P s) :
    P (runGroups snap gs s).state := by
  induction gs generalizing s with
  | nil => exact hs
  | cons g gs ih =>
    rw [List.flatten_cons] at hrow
    refine bind_keeps ?_ (fun _ t _ ht => ih (fun h hh => hrow h (List.mem_append_right _ hh)) t ht)
    rcases runGroup_cases snap g s with ⟨h, hh, hfire, heq⟩ | ⟨-, heq⟩
    · rw [heq]; exact hrow h (List.mem_append_left _ hh) s hs hfire
    · rw [heq]; exact hs

theorem ackSnapshot_cases (snap : Snapshot) (x : Flow Unit) :
    ackSnapshot snap x = hwAckStatus (flagMask snap) x.state ∨
    ackSnapshot snap x = x.state := by
  cases x with
  | go a s => exact .inl rfl
  | done s => exact .inl rfl
  | halt s => exact .inr rfl

/-! ### Callbacks, FLUSH, prefill -/

/-- A callback answers with a value, or its violation is recorded as a fault; either way the call is logged with its
answer (44_slave_engine.md R260, R261). -/
theorem callSlave_cases (c : Callback) (s : State) :
    (∃ st b, callbackAnswer s = .value st b ∧
      callSlave c s = .go (st, b) (logCallback c (answerShape c st b) (usedCallbackAnswer s))) ∨
    (callbackAnswer s = .violation ∧
      callSlave c s = .halt (raiseFault .callbackReentry (logCallback c .violation (usedCallbackAnswer s)))) := by
  unfold callSlave
  cases h : callbackAnswer s with
  | value st b => exact .inl ⟨st, b, rfl, rfl⟩
  | violation => exact .inr ⟨rfl, rfl⟩

/-- A property that calls and recorded faults keep is kept by FLUSH's loop. -/
theorem flushLoop_keeps {P : State → Prop} (hcall : ∀ c s, P s → P (callSlave c s).state)
    (hfault : ∀ r s, P s → P (raiseFault r s)) (n i : Nat) (s : State) (hs : P s) : P (flushLoop n i s).state := by
  induction n generalizing i s with
  | zero => exact hs
  | succ n ih =>
    unfold flushLoop
    split
    · exact hfault _ s hs
    · exact bind_keeps (hcall _ s hs) (fun _ t _ ht => ih (i + 1) t ht)

theorem flush_keeps {P : State → Prop} (hread : ∀ s, P s → P (hwReadDmaCount s))
    (hcall : ∀ c s, P s → P (callSlave c s).state) (hfault : ∀ r s, P s → P (raiseFault r s)) (s : State) (hs : P s) :
    P (flush s).state := flushLoop_keeps hcall hfault _ _ _ (hread s hs)

/-- A property that calls and transmit buffer writes keep is kept by the prefill. -/
theorem prefillLoop_keeps {P : State → Prop} (hcall : ∀ c s, P s → P (callSlave c s).state)
    (hwrite : ∀ i b s, P s → P { s with txBuffer := bufWrite s.txBuffer i b }) (fuel k : Nat) (s : State) (hs : P s) :
    P (prefillLoop fuel k s).state := by
  induction fuel generalizing k s with
  | zero => exact hs
  | succ n ih =>
    refine bind_keeps (hcall _ s hs) (fun r t _ ht => ?_)
    split
    · exact ht
    · exact ih (k + 1) _ (hwrite k _ t ht)

theorem prefill_keeps {P : State → Prop} (hcall : ∀ c s, P s → P (callSlave c s).state)
    (hwrite : ∀ i b s, P s → P { s with txBuffer := bufWrite s.txBuffer i b }) (s : State) (hs : P s) :
    P (prefill s).state := by
  refine bind_keeps (hcall _ s hs) (fun r t _ ht => ?_)
  split
  · exact ht
  · exact prefillLoop_keeps hcall hwrite _ 1 _ (hwrite 0 _ t ht)

/-- The prefill counts at most `SLAVE_WINDOW` bytes (44_slave_engine.md R275). -/
theorem prefillLoop_count (fuel k : Nat) (s : State) {n : Nat} {t : State} (h : prefillLoop fuel k s = .go n t) :
    k ≤ n ∧ n ≤ k + fuel := by
  induction fuel generalizing k s with
  | zero => simp only [prefillLoop, Flow.go.injEq] at h; omega
  | succ m ih =>
    unfold prefillLoop at h
    rcases callSlave_cases (.readProcessed k) s with ⟨st, b, -, hc⟩ | ⟨-, hc⟩
    · rw [hc, bind_go] at h
      split at h
      · simp only [Flow.go.injEq] at h; omega
      · have := ih (k + 1) _ h; omega
    · rw [hc, bind_halt] at h; exact absurd h (by simp)

theorem prefill_count (s : State) {n : Nat} {t : State} (h : prefill s = .go n t) : n ≤ slaveWindow := by
  unfold prefill at h
  rcases callSlave_cases .readRequested s with ⟨st, b, -, hc⟩ | ⟨-, hc⟩
  · rw [hc, bind_go] at h
    split at h
    · simp only [Flow.go.injEq] at h; omega
    · have := (prefillLoop_count _ _ _ h).2; simp only [slaveWindow] at *; omega
  · rw [hc, bind_halt] at h; exact absurd h (by simp)

/-! ### The frame of an interrupt invocation -/

/-- What no part of an interrupt invocation writes, and what it only appends to or keeps in form. -/
structure EngineKeeps (s t : State) : Prop where
  rxBuffer : t.rxBuffer = s.rxBuffer
  deviceAddress : t.deviceAddress = s.deviceAddress
  slaveConfig : t.slaveConfig = s.slaveConfig
  readDest : t.readDest = s.readDest
  sourceClock : t.sourceClock = s.sourceClock
  bitrate : t.bitrate = s.bitrate
  lock : t.lock = s.lock
  initialized : t.initialized = s.initialized
  callers : t.callers = s.callers
  callerMem : t.callerMem = s.callerMem
  resultLog : t.resultLog = s.resultLog
  busLog : t.busLog = s.busLog
  bootCmdLog : t.bootCmdLog = s.bootCmdLog
  bootResultLog : t.bootResultLog = s.bootResultLog
  cfg : t.cfg = s.cfg
  schedule : t.schedule = s.schedule
  issue : t.issue = s.issue
  irqEn : t.hw.irqEn = s.hw.irqEn
  matchIrqEn : t.hw.matchIrqEn = s.hw.matchIrqEn
  matchEn : t.hw.matchEn = s.hw.matchEn
  slaveAddr : t.hw.slaveAddr = s.hw.slaveAddr
  xmit : t.hw.xmit = s.hw.xmit
  cmdLog : s.cmdLog <+: t.cmdLog
  cbLog : s.cbLog <+: t.cbLog
  slaveErrors : s.slaveErrors <+: t.slaveErrors
  faults : s.faults <+: t.faults
  txBuffer : bufWf s.txBuffer → bufWf t.txBuffer
  written : ∀ i, (bufRead s.txBuffer i).isSome → (bufRead t.txBuffer i).isSome

theorem EngineKeeps.refl (s : State) : EngineKeeps s s := by
  constructor <;> simp

theorem EngineKeeps.trans {s t u : State} (h : EngineKeeps s t) (k : EngineKeeps t u) : EngineKeeps s u where
  rxBuffer := k.rxBuffer.trans h.rxBuffer
  deviceAddress := k.deviceAddress.trans h.deviceAddress
  slaveConfig := k.slaveConfig.trans h.slaveConfig
  readDest := k.readDest.trans h.readDest
  sourceClock := k.sourceClock.trans h.sourceClock
  bitrate := k.bitrate.trans h.bitrate
  lock := k.lock.trans h.lock
  initialized := k.initialized.trans h.initialized
  callers := k.callers.trans h.callers
  callerMem := k.callerMem.trans h.callerMem
  resultLog := k.resultLog.trans h.resultLog
  busLog := k.busLog.trans h.busLog
  bootCmdLog := k.bootCmdLog.trans h.bootCmdLog
  bootResultLog := k.bootResultLog.trans h.bootResultLog
  cfg := k.cfg.trans h.cfg
  schedule := k.schedule.trans h.schedule
  issue := k.issue.trans h.issue
  irqEn := k.irqEn.trans h.irqEn
  matchIrqEn := k.matchIrqEn.trans h.matchIrqEn
  matchEn := k.matchEn.trans h.matchEn
  slaveAddr := k.slaveAddr.trans h.slaveAddr
  xmit := k.xmit.trans h.xmit
  cmdLog := h.cmdLog.trans k.cmdLog
  cbLog := h.cbLog.trans k.cbLog
  slaveErrors := h.slaveErrors.trans k.slaveErrors
  faults := h.faults.trans k.faults
  txBuffer := k.txBuffer ∘ h.txBuffer
  written := fun i hi => k.written i (h.written i hi)

/-! Every command an engine issues keeps the frame. -/

section commands
variable (s : State)

theorem keeps_hwStop : EngineKeeps s (hwStop s) := by constructor <;> simp [hwStop]
theorem keeps_hwStart : EngineKeeps s (hwStart s) := by constructor <;> simp [hwStart]
theorem keeps_hwStallEn : EngineKeeps s (hwStallEn s) := by constructor <;> simp [hwStallEn]
theorem keeps_hwStallDis : EngineKeeps s (hwStallDis s) := by constructor <;> simp [hwStallDis]
theorem keeps_hwSendAddr (b : Byte) : EngineKeeps s (hwSendAddr b s) := by constructor <;> simp [hwSendAddr]
theorem keeps_hwDmaTx (n : BitVec 16) : EngineKeeps s (hwDmaTx n s) := by constructor <;> simp [hwDmaTx, armDma]
theorem keeps_hwDmaRx (n : BitVec 16) : EngineKeeps s (hwDmaRx n s) := by constructor <;> simp [hwDmaRx, armDma]
theorem keeps_hwDmaNackLast : EngineKeeps s (hwDmaNackLast s) := by constructor <;> simp [hwDmaNackLast]
theorem keeps_hwReset : EngineKeeps s (hwReset s) := by constructor <;> simp [hwReset, resetHw, disarmDma]
theorem keeps_abort : EngineKeeps s (abort s) := by rw [abort_eq]; constructor <;> simp
theorem keeps_hwAckMode (b : Bool) : EngineKeeps s (hwAckMode b s) := by constructor <;> simp [hwAckMode]
theorem keeps_hwWriteData (b : Byte) : EngineKeeps s (hwWriteData b s) := by constructor <;> simp [hwWriteData]
theorem keeps_hwReadStatus : EngineKeeps s (hwReadStatus s) := by constructor <;> simp [hwReadStatus]
theorem keeps_hwReadDmaCount : EngineKeeps s (hwReadDmaCount s) := by constructor <;> simp [hwReadDmaCount]
theorem keeps_hwAckStatus (m : Byte) : EngineKeeps s (hwAckStatus m s) := by constructor <;> simp [hwAckStatus]
theorem keeps_hwReadData : EngineKeeps s (hwReadData s) := by constructor <;> simp [hwReadData]
theorem keeps_raiseFault (r : Fault) : EngineKeeps s (raiseFault r s) := by constructor <;> simp

theorem keeps_callSlave (c : Callback) : EngineKeeps s (callSlave c s).state := by
  rcases callSlave_cases c s with ⟨st, b, -, h⟩ | ⟨-, h⟩ <;> rw [h] <;> constructor <;> simp

theorem keeps_txWrite (i : Nat) (b : Byte) : EngineKeeps s { s with txBuffer := bufWrite s.txBuffer i b } := by
  constructor <;> first | rfl | exact List.prefix_refl _ | exact bufWf_bufWrite i b | exact bufWrite_isSome _ i b

theorem keeps_flush : EngineKeeps s (flush s).state :=
  flush_keeps (P := EngineKeeps s) (fun t h => h.trans (keeps_hwReadDmaCount t))
    (fun c t h => h.trans (keeps_callSlave t c)) (fun r t h => h.trans (keeps_raiseFault t r)) s (.refl s)

theorem keeps_prefill : EngineKeeps s (prefill s).state :=
  prefill_keeps (P := EngineKeeps s) (fun c t h => h.trans (keeps_callSlave t c))
    (fun i b t h => h.trans (keeps_txWrite t i b)) s (.refl s)

end commands

/-! Every row keeps it, and so does a whole invocation. -/

section rows
variable (s : State)

/-! The fields an engine writes beside its commands. -/

theorem keeps_masterState (p : Phase) : EngineKeeps s { s with masterState := p } := by constructor <;> simp
theorem keeps_slaveState (p : Phase) : EngineKeeps s { s with slaveState := p } := by constructor <;> simp
theorem keeps_endMaster (e : ErrorKind) : EngineKeeps s (endMaster e s) := by constructor <;> simp [endMaster]
theorem keeps_reportSlave (e : SlaveError) : EngineKeeps s (reportSlave e s) := by constructor <;> simp [reportSlave]

theorem keeps_mHwto : EngineKeeps s (mHwto s).state := (keeps_hwReset s).trans (keeps_endMaster _ _)

theorem keeps_mNack : EngineKeeps s (mNack s).state := (keeps_abort s).trans (keeps_endMaster _ _)

theorem keeps_mBer : EngineKeeps s (mBer s).state :=
  ((keeps_abort s).trans (keeps_hwReset _)).trans (keeps_endMaster _ _)

theorem keeps_mDrStartQuick : EngineKeeps s (mDrStartQuick s).state :=
  ((keeps_hwStallEn s).trans (keeps_hwSendAddr _ _)).trans (keeps_masterState _ _)

theorem keeps_mDrStartRead : EngineKeeps s (mDrStartRead s).state :=
  ((keeps_hwStallEn s).trans (keeps_hwSendAddr _ _)).trans (keeps_masterState _ _)

theorem keeps_mDrStartWrite : EngineKeeps s (mDrStartWrite s).state :=
  (keeps_hwSendAddr s _).trans (keeps_masterState _ _)

theorem keeps_mDrWrite : EngineKeeps s (mDrWrite s).state := keeps_hwDmaTx s _

theorem keeps_mStallRead : EngineKeeps s (mStallRead s).state :=
  ((keeps_hwDmaNackLast s).trans (keeps_hwDmaRx _ _)).trans (keeps_hwStallDis _)

theorem keeps_mStop : EngineKeeps s (endMaster .ok (hwStop s)) := (keeps_hwStop s).trans (keeps_endMaster _ _)

theorem keeps_mDmaWriteRestart : EngineKeeps s (mDmaWriteRestart s).state :=
  (((keeps_masterState s .read).trans (keeps_hwStallEn _)).trans (keeps_hwStart _)).trans (keeps_hwSendAddr _ _)

theorem keeps_mDmaRead : EngineKeeps s (mDmaRead s).state := by
  constructor <;> simp [mDmaRead, hwReadDmaCount, hwStop]

theorem keeps_sHwto : EngineKeeps s (sHwto s).state :=
  ((keeps_hwReset s).trans (keeps_slaveState _ _)).trans (keeps_reportSlave _ _)

theorem keeps_sBer : EngineKeeps s (sBer s).state := by
  unfold sBer
  split
  · exact (keeps_slaveState s .start).trans (keeps_hwReset _)
  · exact ((keeps_reportSlave s .slaveBusError).trans (keeps_slaveState _ .start)).trans (keeps_hwReset _)

theorem keeps_sDmaRx : EngineKeeps s (sDmaRx s).state := by
  unfold sDmaRx
  split
  · exact (keeps_hwReadDmaCount s).trans (keeps_hwAckMode _ _)
  · exact keeps_hwReadDmaCount s

theorem keeps_flushIfWrite : EngineKeeps s (flushIfWrite s).state := by
  unfold flushIfWrite
  split
  · exact keeps_flush s
  · exact .refl s

theorem keeps_txDecision (k : Nat) : EngineKeeps s (txDecision k s) := by
  unfold txDecision; split <;> constructor <;> simp [hwDmaTx, armDma]

theorem keeps_sAmTx : EngineKeeps s (sAmTx s).state :=
  bind_keeps (P := EngineKeeps s) (keeps_flushIfWrite s) fun _ t _ ht =>
    bind_keeps (P := EngineKeeps s) (ht.trans (keeps_prefill t)) fun k u _ hu => hu.trans (keeps_txDecision u k)

theorem keeps_sAmRx : EngineKeeps s (sAmRx s).state := by
  have h : EngineKeeps s { hwDmaRx (BitVec.ofNat 16 slaveWindow) (hwAckMode false s) with slaveState := .write } :=
    ((keeps_hwAckMode s false).trans (keeps_hwDmaRx _ _)).trans (keeps_slaveState _ _)
  exact bind_keeps (P := EngineKeeps s) (h.trans (keeps_callSlave _ _)) fun _ t _ ht => ht

theorem keeps_sDrOverflow : EngineKeeps s (sDrOverflow s).state :=
  bind_keeps (P := EngineKeeps s) (keeps_flush s) fun _ t _ ht =>
    bind_keeps (P := EngineKeeps s) ((ht.trans (keeps_hwReadData t)).trans (keeps_callSlave _ _)) fun _ u _ hu =>
      hu.trans (keeps_slaveState u _)

theorem keeps_sDrFill : EngineKeeps s (sDrFill s).state := keeps_hwWriteData s _

theorem keeps_sStop : EngineKeeps s (sStop s).state :=
  bind_keeps (P := EngineKeeps s) (keeps_flushIfWrite s) fun _ t _ ht =>
    bind_keeps (P := EngineKeeps s)
      (by
        unfold stopIfActive
        split
        · exact bind_keeps (P := EngineKeeps s) (ht.trans (keeps_callSlave t _)) fun _ u _ hu => hu
        · exact ht)
      fun _ u _ hu => hu.trans (keeps_slaveState u _)

end rows

/-- Every row of the table keeps the frame. -/
theorem keeps_rows : ∀ h ∈ masterGroups.flatten ++ slaveGroups.flatten, ∀ s, EngineKeeps s (h.2 s).state := by
  intro h hh s
  simp only [masterGroups_flatten, slaveGroups_flatten, List.cons_append, List.nil_append, List.mem_cons,
    List.not_mem_nil, or_false] at hh
  rcases hh with rfl | rfl | rfl | rfl | rfl | rfl | rfl | rfl | rfl | rfl | rfl | rfl | rfl | rfl | rfl | rfl | rfl |
    rfl | rfl | rfl
  exacts [keeps_mHwto s, keeps_mNack s, keeps_mBer s, keeps_mDrStartQuick s, keeps_mDrStartRead s,
    keeps_mDrStartWrite s, keeps_mDrWrite s, keeps_mStallRead s, keeps_mStop s, keeps_mStop s,
    keeps_mDmaWriteRestart s, keeps_mDmaRead s, keeps_sHwto s, keeps_sBer s, keeps_sDmaRx s, keeps_sAmTx s,
    keeps_sAmRx s, keeps_sDrOverflow s, keeps_sDrFill s, keeps_sStop s]

theorem keeps_runGroups (snap : Snapshot) (gs : List (List (Row × (State → Flow Unit)))) (s : State)
    (hgs : ∀ h ∈ gs.flatten, h ∈ masterGroups.flatten ++ slaveGroups.flatten) :
    EngineKeeps s (runGroups snap gs s).state :=
  runGroups_keeps (P := EngineKeeps s) snap gs
    (fun h hh t ht _ => ht.trans (keeps_rows h (hgs h hh) t)) s (.refl s)

theorem keeps_ackSnapshot {s : State} (snap : Snapshot) {x : Flow Unit} (h : EngineKeeps s x.state) :
    EngineKeeps s (ackSnapshot snap x) := by
  rcases ackSnapshot_cases snap x with hx | hx <;> rw [hx]
  · exact h.trans (keeps_hwAckStatus _ _)
  · exact h

/-- A whole invocation keeps the frame: no caller's record, no lock, no result, no receive buffer, no interrupt enable
changes in it (60_exceptions.md R329, R330). -/
theorem keeps_dispatchIrq (s : State) : EngineKeeps s (dispatchIrq s) := by
  refine (keeps_hwReadStatus s).trans ?_
  unfold dispatchIrq
  dsimp only
  split
  · exact keeps_ackSnapshot _ (keeps_runGroups _ _ _ fun h hh => List.mem_append_left _ hh)
  · split
    · exact keeps_ackSnapshot _ (keeps_runGroups _ _ _ fun h hh => List.mem_append_right _ hh)
    · exact keeps_hwAckStatus _ _

/-- A handler row run on its own fires and runs its body, or changes nothing. -/
theorem execRow_cases (r : Row) (body : State → Flow Unit) (s : State) :
    (routedTo r.role s = true ∧ rowFires r (r.keyMatch.extractLsb' 0 9) s = true ∧
      execRow r body s = .next (body s).state) ∨
    execRow r body s = .next s := by
  unfold execRow
  split
  · rename_i h
    rw [Bool.and_eq_true] at h
    exact .inl ⟨h.1, h.2, rfl⟩
  · exact .inr rfl

end Sys2Proof.Machine
end

