-- ==== Sys2Proof/Laws/PerInstr.lean ====
section
/-! SUPPORT. Statements made per instruction: the bits an instruction's code has under the mask of its row of
spec/opcode_table.json are the row's match. -/

namespace Sys2Proof.Laws.TableBits

/-- The instruction's code has the row's match under the row's mask (30_encoding.md R107, R110, R111). -/
def Statement (i : Instr) : Prop := (encode i).bits &&& (tableMatchMask i).2 = (tableMatchMask i).1

/-- A word's bits under a mask, as 32-bit words. -/
theorem word_bits {w m v : OpWord} {mask value : Nat} (hm : m.toNat = mask) (hv : v.toNat = value)
    (h : w &&& m = v) : (Code.word w).bits &&& mask = value := by
  rw [← hm, ← hv, ← h, BitVec.toNat_and]
  rfl

/-- The three fields of a word are masked apart. -/
theorem packWord_and (op a8 mo m8 : BitVec 8) (a16 m16 : BitVec 16) :
    packWord op a8 a16 &&& packWord mo m8 m16 = packWord (op &&& mo) (a8 &&& m8) (a16 &&& m16) := by
  refine Eq.trans (BitVec.and_append (x₁ := op ++ a8) (x₂ := mo ++ m8) (y₁ := a16) (y₂ := m16)) ?_
  rw [BitVec.and_append]
  rfl

/-- The word of a row whose argument fields fit its mask. -/
theorem packed_bits {op a8 m8 v8 : BitVec 8} {a16 m16 v16 : BitVec 16} {mask value : Nat}
    (hm : (packWord 0xFF#8 m8 m16).toNat = mask) (hv : (packWord op v8 v16).toNat = value)
    (h8 : a8 &&& m8 = v8) (h16 : a16 &&& m16 = v16) :
    (Code.word (packWord op a8 a16)).bits &&& mask = value := by
  refine word_bits hm hv ?_
  rw [packWord_and, h8, h16, show (0xFF#8 : BitVec 8) = BitVec.allOnes 8 from rfl, BitVec.and_allOnes]

theorem init : Statement .init := rfl

theorem slaveUnregister : Statement .slaveUnregister := rfl

theorem irq : Statement .irq := rfl

theorem hwStart : Statement .hwStart := rfl

theorem hwStop : Statement .hwStop := rfl

theorem hwStallEn : Statement .hwStallEn := rfl

theorem hwStallDis : Statement .hwStallDis := rfl

theorem hwDmaNackLast : Statement .hwDmaNackLast := rfl

theorem hwReset : Statement .hwReset := rfl

theorem hwClearStatus : Statement .hwClearStatus := rfl

theorem hwClearDma : Statement .hwClearDma := rfl

theorem hwWaitBusFree : Statement .hwWaitBusFree := rfl

theorem hwSetTimeout : Statement .hwSetTimeout := rfl

theorem hwReadData : Statement .hwReadData := rfl

theorem hwReadDmaCount : Statement .hwReadDmaCount := rfl

theorem hwReadStatus : Statement .hwReadStatus := rfl

theorem clkEnable : Statement .clkEnable := rfl

theorem clkGetRate : Statement .clkGetRate := rfl

theorem hwReadBusy : Statement .hwReadBusy := rfl

theorem configure (addr10 : Bool) (cls : BitVec 4) : Statement (.configure addr10 cls) := by
  revert addr10 cls; unfold Statement; decide

theorem transfer (addr7 : Addr7) (msgCount : BitVec 16) : Statement (.transfer addr7 msgCount) :=
  packed_bits (m8 := 0x80#8) (m16 := 0#16) (v8 := 0#8) (v16 := 0#16) rfl rfl
    (by
      rw [show (0x80#8 : BitVec 8) = 1#1 ++ 0#7 from rfl, BitVec.and_append, BitVec.and_zero]
      rfl)
    BitVec.and_zero

theorem slaveRegister (addr10 : Bool) (addr7 : Addr7) (isNull : Bool) : Statement (.slaveRegister addr10 addr7 isNull) :=
  packed_bits (m8 := 0#8) (m16 := 0xFFFE#16) (v8 := 0#8) (v16 := 0#16) rfl rfl BitVec.and_zero
    (by cases isNull <;> rfl)

theorem hwSendAddr (b : Byte) : Statement (.hwSendAddr b) :=
  packed_bits (m8 := 0#8) (m16 := 0xFFFF#16) (v8 := 0#8) (v16 := 0#16) rfl rfl BitVec.and_zero rfl

theorem hwDmaTx (length : BitVec 16) : Statement (.hwDmaTx length) :=
  packed_bits (m8 := 0xFF#8) (m16 := 0#16) (v8 := 0#8) (v16 := 0#16) rfl rfl rfl BitVec.and_zero

theorem hwDmaRx (length : BitVec 16) : Statement (.hwDmaRx length) :=
  packed_bits (m8 := 0xFF#8) (m16 := 0#16) (v8 := 0#8) (v16 := 0#16) rfl rfl rfl BitVec.and_zero

theorem hwSetBaud (fmPlus : Bool) (hold : BitVec 5) (div : BitVec 9) : Statement (.hwSetBaud fmPlus hold div) := by
  refine word_bits (w := encodeWord (.hwSetBaud fmPlus hold div)) (m := 0xFF#8 ++ packBaud false 0#5 0#9 ||| 0x1FF#32)
    (v := 0x1D000000#32) rfl rfl ?_
  rw [show (0xFF#8 ++ packBaud false 0#5 0#9 ||| 0x1FF#32 : BitVec 32) = 0xFF#8 ++ (0#15 ++ 0x1FF#9 : BitVec 24) from rfl]
  rw [encodeWord, packBaud, BitVec.and_append, BitVec.and_append, BitVec.and_zero]
  rfl

theorem hwSetScl (sclHigh sclLow : BitVec 12) : Statement (.hwSetScl sclHigh sclLow) := by
  refine word_bits (w := encodeWord (.hwSetScl sclHigh sclLow)) (m := 0xFF#8 ++ 0#24) (v := 0x1E000000#32) rfl rfl ?_
  rw [encodeWord, BitVec.and_append, BitVec.and_zero]
  rfl

theorem hwSetSlaveAddr (en : Bool) (addr7 : Addr7) : Statement (.hwSetSlaveAddr en addr7) :=
  packed_bits (m8 := 0#8) (m16 := 0xFFFF#16) (v8 := 0#8) (v16 := 0#16) rfl rfl BitVec.and_zero rfl

theorem hwMatchIrq (en : Bool) : Statement (.hwMatchIrq en) := by cases en <;> rfl

theorem hwAckMode (nack : Bool) : Statement (.hwAckMode nack) := by cases nack <;> rfl

theorem hwWriteData (byte : Byte) : Statement (.hwWriteData byte) :=
  packed_bits (m8 := 0#8) (m16 := 0xFFFF#16) (v8 := 0#8) (v16 := 0#16) rfl rfl BitVec.and_zero rfl

theorem hwAckStatus (mask : Byte) : Statement (.hwAckStatus mask) :=
  packed_bits (m8 := 0xFF#8) (m16 := 0xFF00#16) (v8 := 0#8) (v16 := 0#16) rfl rfl rfl
    (by
      rw [show (0xFF00#16 : BitVec 16) = 0xFF#8 ++ 0#8 from rfl, BitVec.and_append, BitVec.and_zero]
      rfl)

theorem hwIrqEnable (en : Bool) : Statement (.hwIrqEnable en) := by cases en <;> rfl

theorem mHwto : Statement .mHwto := rfl

theorem mNack : Statement .mNack := rfl

theorem mBer : Statement .mBer := rfl

theorem mDrStartQuick : Statement .mDrStartQuick := rfl

theorem mDrStartRead : Statement .mDrStartRead := rfl

theorem mDrStartWrite : Statement .mDrStartWrite := rfl

theorem mDrWrite : Statement .mDrWrite := rfl

theorem mStallRead : Statement .mStallRead := rfl

theorem mStallQuick : Statement .mStallQuick := rfl

theorem mDmaWriteStop : Statement .mDmaWriteStop := rfl

theorem mDmaWriteRestart : Statement .mDmaWriteRestart := rfl

theorem mDmaRead : Statement .mDmaRead := rfl

theorem sHwto : Statement .sHwto := rfl

theorem sBer : Statement .sBer := rfl

theorem sDmaRx : Statement .sDmaRx := rfl

theorem sAmTx : Statement .sAmTx := rfl

theorem sAmRx : Statement .sAmRx := rfl

theorem sDrOverflow : Statement .sDrOverflow := rfl

theorem sDrFill : Statement .sDrFill := rfl

theorem sStop : Statement .sStop := rfl

end Sys2Proof.Laws.TableBits
end

