-- ==== Sys2Proof/Laws/Step.lean ====
section
/-! SUPPORT. The step, inverted once: what it can have done when it answers a next state, and which sub-step a caller
takes (00_scope.md R9, 42_master_caller.md R192). -/

namespace Sys2Proof.Machine

/-- The state with the first input taken off the schedule. -/
abbrev taken (s : State) (rest : List Input) : State := { s with schedule := rest }

theorem fetch_stop {s : State} {r : Fault} {l : List Fault} (h : s.faults = r :: l) : fetch s = .stop r := by
  unfold fetch; split
  · rename_i r' l' he; rw [h] at he; cases he; rfl
  · rename_i he; rw [h] at he; cases he

theorem fetch_idle {s : State} (hf : s.faults = []) (hs : s.schedule = []) : fetch s = .agent s := by
  unfold fetch; split
  · rename_i he; rw [hf] at he; cases he
  · split
    · rfl
    · rename_i he; rw [hs] at he; cases he

theorem fetch_input {s : State} {x : Input} {rest : List Input} (hf : s.faults = []) (hs : s.schedule = x :: rest) :
    fetch s = fetchInput x (taken s rest) := by
  unfold fetch; split
  · rename_i he; rw [hf] at he; cases he
  · split
    · rename_i he; rw [hs] at he; cases he
    · rename_i he; rw [hs] at he; cases he; rfl

/-- Everything a step that answers a next state can have done. -/
theorem step_cases {s t : State} (h : step s = .next t) :
    s.faults = [] ∧
      ((s.schedule = [] ∧ t = s) ∨
       ∃ x rest, s.schedule = x :: rest ∧
        ((∃ w b i, x = .word w b ∧ decodeWord w = .ok i ∧ wordEnabled w s = true ∧
            exec i { taken s rest with issue := b } = .next t) ∨
         (∃ k i, x = .key k ∧ selectRow k (taken s rest) = some i ∧ s.initialized = true ∧
            exec i (taken s rest) = .next t) ∨
         (t = taken s rest) ∨
         (∃ a, x = .advance a ∧ t = advanceCaller a (taken s rest)) ∨
         (∃ a, x = .expire a ∧ t = expireCaller a (taken s rest)) ∨
         (∃ e, x = .env e ∧ t = envStep e (taken s rest)) ∨
         (∃ a b, x = .store a b ∧ t = setCallerByte a b (taken s rest)))) := by
  unfold step at h
  cases hf : s.faults with
  | cons r l => rw [fetch_stop hf] at h; cases h
  | nil =>
    refine ⟨rfl, ?_⟩
    cases hs : s.schedule with
    | nil => rw [fetch_idle hf hs] at h; cases h; exact .inl ⟨rfl, rfl⟩
    | cons x rest =>
      rw [fetch_input hf hs] at h
      refine .inr ⟨x, rest, rfl, ?_⟩
      cases x with
      | word w b =>
        cases hw : decodeWord w with
        | ok i =>
          simp only [fetchInput, hw] at h
          by_cases he : wordEnabled w s = true
          · rw [if_pos (show wordEnabled w (taken s rest) = true from he)] at h
            exact .inl ⟨w, b, i, rfl, hw, he, h⟩
          · rw [if_neg (show ¬ wordEnabled w (taken s rest) = true from he)] at h
            cases h; exact .inr (.inr (.inl rfl))
        | error e => simp only [fetchInput, hw] at h; cases h
      | key k =>
        cases hk : selectRow k (taken s rest) with
        | some i =>
          simp only [fetchInput, hk] at h
          by_cases he : s.initialized = true
          · rw [if_pos he] at h; exact .inr (.inl ⟨k, i, rfl, hk, he, h⟩)
          · rw [if_neg he] at h; cases h; exact .inr (.inr (.inl rfl))
        | none => simp only [fetchInput, hk] at h; cases h; exact .inr (.inr (.inl rfl))
      | advance a => cases h; exact .inr (.inr (.inr (.inl ⟨a, rfl, rfl⟩)))
      | expire a => cases h; exact .inr (.inr (.inr (.inr (.inl ⟨a, rfl, rfl⟩))))
      | env e => cases h; exact .inr (.inr (.inr (.inr (.inr (.inl ⟨e, rfl, rfl⟩)))))
      | store a b => cases h; exact .inr (.inr (.inr (.inr (.inr (.inr ⟨a, b, rfl, rfl⟩)))))

/-- The sub-step a caller takes: the one its record names, or none. -/
theorem advanceCaller_cases (a : Nat) (s : State) :
    (∃ op, (getCaller s a).op = some op ∧ (getCaller s a).pc = 1 ∧
      (op = .transfer ∨ op = .slaveRegister ∨ op = .slaveUnregister) ∧ advanceCaller a s = acquire a s) ∨
    ((getCaller s a).op = some .transfer ∧
      ((∃ addr7 msgs, (getCaller s a).pc = 2 ∧ (getCaller s a).args = .transfer addr7 msgs ∧
          advanceCaller a s = transferFill a addr7 msgs s) ∨
       ((getCaller s a).pc = 4 ∧ advanceCaller a s = transferArm a s) ∨
       ((getCaller s a).pc = 5 ∧ advanceCaller a s = transferWake a s) ∨
       ((getCaller s a).pc = 6 ∧ advanceCaller a s = transferCopyOut a s) ∨
       ((getCaller s a).pc = 7 ∧ advanceCaller a s = transferReturn a s))) ∨
    (∃ cfg, (getCaller s a).op = some .slaveRegister ∧ (getCaller s a).pc = 2 ∧
      (getCaller s a).args = .register (some cfg) ∧ advanceCaller a s = registerBody a cfg s) ∨
    ((getCaller s a).op = some .slaveUnregister ∧ (getCaller s a).pc = 2 ∧
      advanceCaller a s = unregisterBody a s) ∨
    advanceCaller a s = s := by
  unfold advanceCaller
  dsimp only
  split
  · rename_i ho hp; exact .inl ⟨_, ho, hp, .inl rfl, rfl⟩
  · rename_i ho hp hargs; exact .inr (.inl ⟨ho, .inl ⟨_, _, hp, hargs, rfl⟩⟩)
  · rename_i ho hp; exact .inr (.inl ⟨ho, .inr (.inl ⟨hp, rfl⟩)⟩)
  · rename_i ho hp; exact .inr (.inl ⟨ho, .inr (.inr (.inl ⟨hp, rfl⟩))⟩)
  · rename_i ho hp; exact .inr (.inl ⟨ho, .inr (.inr (.inr (.inl ⟨hp, rfl⟩)))⟩)
  · rename_i ho hp; exact .inr (.inl ⟨ho, .inr (.inr (.inr (.inr ⟨hp, rfl⟩)))⟩)
  · rename_i ho hp; exact .inl ⟨_, ho, hp, .inr (.inl rfl), rfl⟩
  · rename_i ho hp hargs; exact .inr (.inr (.inl ⟨_, ho, hp, hargs, rfl⟩))
  · rename_i ho hp; exact .inl ⟨_, ho, hp, .inr (.inr rfl), rfl⟩
  · rename_i ho hp; exact .inr (.inr (.inr (.inl ⟨ho, hp, rfl⟩)))
  · exact .inr (.inr (.inr (.inr rfl)))

/-- The expiry a caller takes: of its lock wait, of its transfer, or none (42_master_caller.md R190, R194). -/
theorem expireCaller_cases (a : Nat) (s : State) :
    (∃ op, (getCaller s a).op = some op ∧ (getCaller s a).pc = 1 ∧
      (op = .transfer ∨ op = .slaveRegister ∨ op = .slaveUnregister) ∧ expireCaller a s = lockExpire a op s) ∨
    ((getCaller s a).op = some .transfer ∧ (getCaller s a).pc = 5 ∧ expireCaller a s = transferExpire a s) ∨
    expireCaller a s = s := by
  unfold expireCaller
  dsimp only
  split
  · rename_i ho hp; exact .inl ⟨_, ho, hp, .inl rfl, rfl⟩
  · rename_i ho hp; exact .inl ⟨_, ho, hp, .inr (.inl rfl), rfl⟩
  · rename_i ho hp; exact .inl ⟨_, ho, hp, .inr (.inr rfl), rfl⟩
  · rename_i ho hp; exact .inr (.inl ⟨ho, hp, rfl⟩)
  · exact .inr (.inr rfl)

/-- The copy changes the callers' memory and, at an unwritten cell, records a fault; nothing else (42_master_caller.md
R196). -/
theorem copyLoop_state (buf n i : Nat) (s : State) :
    ∃ mem faults, (copyLoop buf n i s).state = { s with callerMem := mem, faults := faults } ∧
      (Memory.wf callerUnlisted s.callerMem → Memory.wf callerUnlisted mem) ∧
      (faults = s.faults ∨ faults = s.faults ++ [.unwrittenBufferRead]) := by
  induction n generalizing i s with
  | zero => exact ⟨_, _, rfl, id, .inl rfl⟩
  | succ n ih =>
    unfold copyLoop
    split
    · exact ⟨_, _, rfl, id, .inr rfl⟩
    · rename_i b _
      obtain ⟨m, f, e, w, hf⟩ := ih (i + 1) (setCallerByte (buf + i) b s)
      exact ⟨m, f, e, fun h => w (setCallerByte_wf s _ b h), hf⟩

/-- A list that `combine` accepts asks for at most 256 bytes in either direction (42_master_caller.md R201). -/
theorem combine_bounds {s : State} {msgs : List Message} {tx : List Byte} {n : Nat} {d : Option ReadDest}
    (h : combine s msgs = some (tx, n, d)) : tx.length ≤ bufCap ∧ n ≤ bufCap := by
  unfold combine at h
  split at h
  · cases h
  · split at h
    · cases h
    · cases h; omega

/-- The loop of `combine` over two lists in sequence. -/
theorem combineLoop_append (s : State) (xs ys : List Message) (g : Segments) :
    combineLoop s (xs ++ ys) g = (combineLoop s xs g).bind (combineLoop s ys) := by
  induction xs generalizing g with
  | nil => rfl
  | cons m ms ih =>
    simp only [List.cons_append, combineLoop]
    cases m.dir <;> simp only [ih] <;> (repeat' split) <;> rfl

/-- The messages of a transfer are as many as its word says. -/
theorem transferMessages_length (n : BitVec 16) (beside : List Message) :
    (transferMessages n beside).length = n.toNat := by
  unfold transferMessages
  split
  · assumption
  · simp

/-- And they are the list beside the word where that list is as long (42_master_caller.md R192). -/
theorem transferMessages_eq {n : BitVec 16} {beside : List Message} (h : beside.length = n.toNat) :
    transferMessages n beside = beside := if_pos h

/-- A message has as many bytes as it says, byte `i` of it the caller's byte `buf + i` (20_memory.md R71). -/
@[simp] theorem messageBytes_length (s : State) (m : Message) : (messageBytes s m).length = m.len := by
  simp [messageBytes]

theorem messageBytes_get (s : State) (m : Message) {i : Nat} (h : i < m.len) :
    (messageBytes s m)[i]? = some (callerByte s (m.buf + i)) := by
  simp [messageBytes, h]

/-! ### A successful INIT leaves the logs empty and loses no entry (10_state.md R49, R53) -/

@[simp] theorem startLogs_cmdLog (s : State) : (startLogs s).cmdLog = [] := rfl

@[simp] theorem startLogs_resultLog (s : State) : (startLogs s).resultLog = [] := rfl

@[simp] theorem startLogs_bootCmdLog (s : State) : (startLogs s).bootCmdLog = s.bootCmdLog ++ s.cmdLog := rfl

@[simp] theorem startLogs_bootResultLog (s : State) :
    (startLogs s).bootResultLog = s.bootResultLog ++ s.resultLog := rfl

end Sys2Proof.Machine
end

