-- ==== Sys2Proof/Tests/Slice0.lean ====
section
/-! SUPPORT. The model's own tests: ill-formed terms refused, every constructor decoded from a word or key written out
from the spec's encoding, one or two small steps per instruction with the results of 95_test_vectors.md, and a witness
for the hypotheses of every statement of Certificates/Slice0/Obligations.lean. -/

namespace Sys2Proof.Tests

open Sys2Proof.Machine

/-! ### Ill-formed terms (30_encoding.md R110) -/

theorem test_dmaTx_length_0_ill_formed : (Instr.hwDmaTx 0#16).wellFormed = false := by decide
theorem test_dmaTx_length_257_ill_formed : (Instr.hwDmaTx 257#16).wellFormed = false := by decide
theorem test_dmaRx_length_0_ill_formed : (Instr.hwDmaRx 0#16).wellFormed = false := by decide
theorem test_dmaRx_length_257_ill_formed : (Instr.hwDmaRx 257#16).wellFormed = false := by decide
theorem test_dma_length_bounds_well_formed :
    (Instr.hwDmaTx 1#16).wellFormed = true ∧ (Instr.hwDmaRx 256#16).wellFormed = true := by decide

/-! ### Decoding: each word and key written out from 30_encoding.md R107, R110, R111 -/

/-- The entry points (R111), with the words V-E1 to V-E6 and V-L6 to V-L8 of 95_test_vectors.md. -/
theorem test_decode_entry_points :
    decodeWord 0x01000000#32 = .ok .init ∧
    decodeWord 0x02020000#32 = .ok (.configure false 2#4) ∧
    decodeWord 0x02110000#32 = .ok (.configure true 1#4) ∧
    decodeWord 0x03500002#32 = .ok (.transfer 0x50#7 2#16) ∧
    decodeWord 0x04C20000#32 = .ok (.slaveRegister true 0x42#7 false) ∧
    decodeWord 0x04000001#32 = .ok (.slaveRegister false 0#7 true) ∧
    decodeWord 0x05000000#32 = .ok .slaveUnregister ∧
    decodeWord 0x06000000#32 = .ok .irq := by decide

/-- The bus-condition, DMA and status commands (R110). -/
theorem test_decode_transfer_commands :
    decodeWord 0x10000000#32 = .ok .hwStart ∧
    decodeWord 0x11000000#32 = .ok .hwStop ∧
    decodeWord 0x12000000#32 = .ok .hwStallEn ∧
    decodeWord 0x13000000#32 = .ok .hwStallDis ∧
    decodeWord 0x14A10000#32 = .ok (.hwSendAddr 0xA1#8) ∧
    decodeWord 0x15000100#32 = .ok (.hwDmaTx 256#16) ∧
    decodeWord 0x16000002#32 = .ok (.hwDmaRx 2#16) ∧
    decodeWord 0x17000000#32 = .ok .hwDmaNackLast ∧
    decodeWord 0x18000000#32 = .ok .hwReset ∧
    decodeWord 0x19000000#32 = .ok .hwClearStatus ∧
    decodeWord 0x1A000000#32 = .ok .hwClearDma ∧
    decodeWord 0x1B000000#32 = .ok .hwWaitBusFree := by decide

/-- The configuration commands (R110); the baud word is V-B3's. -/
theorem test_decode_configuration_commands :
    decodeWord 0x1C000000#32 = .ok .hwSetTimeout ∧
    decodeWord 0x1DC41800#32 = .ok (.hwSetBaud true 17#5 12#9) ∧
    decodeWord 0x1E00900B#32 = .ok (.hwSetScl 9#12 11#12) ∧
    decodeWord 0x1FC20000#32 = .ok (.hwSetSlaveAddr true 0x42#7) ∧
    decodeWord 0x20010000#32 = .ok (.hwMatchIrq true) ∧
    decodeWord 0x21000000#32 = .ok (.hwAckMode false) ∧
    decodeWord 0x27010000#32 = .ok (.hwIrqEnable true) := by decide

/-- The data, status and clock commands (R110). -/
theorem test_decode_read_commands :
    decodeWord 0x22FF0000#32 = .ok (.hwWriteData 0xFF#8) ∧
    decodeWord 0x23000000#32 = .ok .hwReadData ∧
    decodeWord 0x24000000#32 = .ok .hwReadDmaCount ∧
    decodeWord 0x25000000#32 = .ok .hwReadStatus ∧
    decodeWord 0x26000041#32 = .ok (.hwAckStatus 0x41#8) ∧
    decodeWord 0x28000000#32 = .ok .clkEnable ∧
    decodeWord 0x29000000#32 = .ok .clkGetRate ∧
    decodeWord 0x2A000000#32 = .ok .hwReadBusy := by decide

/-- Refused words: V-E7 to V-E11. -/
theorem test_decode_refusals :
    decodeWord 0x00000000#32 = .error .reservedOpcode ∧
    decodeWord 0x07000000#32 = .error .reservedOpcode ∧
    decodeWord 0x2B000000#32 = .error .reservedOpcode ∧
    decodeWord 0x10000001#32 = .error .unusedBits ∧
    decodeWord 0x20020000#32 = .error .unusedBits := by decide

/-- The master rows, one key each (R107); V-K1 to V-K3. -/
theorem test_decode_master_keys :
    decodeKey 0x2080#16 = [.mHwto] ∧
    decodeKey 0x1004#16 = [.mNack] ∧
    decodeKey 0x3002#16 = [.mBer] ∧
    decodeKey 0x1001#16 = [.mDrStartQuick, .mDrStartRead, .mDrStartWrite] ∧
    decodeKey 0x2001#16 = [.mDrWrite] ∧
    decodeKey 0x3008#16 = [.mStallRead] ∧
    decodeKey 0x4008#16 = [.mStallQuick] ∧
    decodeKey 0x2040#16 = [.mDmaWriteStop, .mDmaWriteRestart] ∧
    decodeKey 0x3040#16 = [.mDmaRead] ∧
    decodeKey 0x3048#16 = [.mStallRead, .mDmaRead] := by decide

/-- The slave rows, one key each (R107); V-K4 to V-K7. -/
theorem test_decode_slave_keys :
    decodeKey 0xB080#16 = [.sHwto] ∧
    decodeKey 0x9002#16 = [.sBer] ∧
    decodeKey 0xA040#16 = [.sDmaRx] ∧
    decodeKey 0x9110#16 = [.sAmTx] ∧
    decodeKey 0x9010#16 = [.sAmRx] ∧
    decodeKey 0xA001#16 = [.sDrOverflow, .sDrFill] ∧
    decodeKey 0xC001#16 = [.sDrFill] ∧
    decodeKey 0xA020#16 = [.sStop] := by decide

/-- A non-zero reserved field, a reserved state code and a key whose bits no row looks at (R113). -/
theorem test_decode_keys_without_rows :
    decodeKey 0x0201#16 = [] ∧ decodeKey 0x5004#16 = [] ∧ decodeKey 0xF020#16 = [] ∧ decodeKey 0x1010#16 = [] := by
  decide

/-! ### Small states -/

/-- Parameters written out: the ones of the state after reset are opaque. -/
def params : Params :=
  { lockTimeout := 0, transferTimeout := 0, busFreeSpinBound := 3, hwTimeout := some [7], initialSpeed := 1000000,
    concatAdjacentWrites := false, regLayout := [] }

/-- Power-on, with those parameters. -/
def power : State := { State.reset with cfg := params }

/-- An initialized idle instance with its interrupt enabled. -/
def up : State :=
  { power with initialized := true, sourceClock := 48000000, hw := { Hw.reset with irqEn := true, clkOn := true } }

/-- Its master at work: state, counts, target 0x50 and one set of flags. -/
def master (p : Phase) (tx rx : Nat) (x : Flags) : State :=
  { up with masterState := p, txCount := tx, rxCount := rx, deviceAddress := 0xA0#8, hw := { up.hw with flags := x } }

/-- A registered slave at 0x42, in a state, with its flags and direction. -/
def slave (p : Phase) (x : Flags) (xmit : Bool) : State :=
  { up with
    slaveState := p, slaveConfig := some { addr7 := 0x42#7, addr10 := false, cb := 0 },
    hw := { up.hw with flags := x, xmit := xmit, matchEn := true, matchIrqEn := true, slaveAddr := some 0x42#7 } }

/-- Callback answers queued for it. -/
def answering (s : State) (q : List CallbackAnswer) : State := { s with oracle := { s.oracle with answerQ := q } }

/-- A receive in progress: the DMA has counted these bytes into the buffer. -/
def received (s : State) (bytes : List Byte) : State :=
  { s with
    rxBuffer := bufWriteList [] 0 bytes,
    hw := { s.hw with dmaDir := .rx, dmaLen := 256, dmaCount := bytes.length, dmaActive := true } }

/-- One caller standing in an operation. -/
def inside (op : EntryPoint) (pc : Nat) (args : CallArgs) (s : State) : State :=
  { s with callers := [(0, { op := some op, pc := pc, args := args, result := none })], lock := .held 0 }

/-- The lock held by another caller. -/
def heldByOther (s : State) : State := { s with lock := .held 9 }

/-- The next state, where there is one. -/
def after (o : Host.Outcome State Fault Refusal) : Option State :=
  match o with
  | .next t => some t
  | .fault _ => none
  | .refused _ => none

/-- What a test looks at in the next state. -/
def look {α : Type} (o : Host.Outcome State Fault Refusal) (f : State → α) : Option α := (after o).map f

/-- The words of the command log. -/
def words (s : State) : List OpWord := s.cmdLog.map CmdEntry.word

/-- The words of the command log up to the end of INIT. -/
def bootWords (s : State) : List OpWord := s.bootCmdLog.map CmdEntry.word

/-- The results of the command log. -/
def results (s : State) : List CmdResult := s.cmdLog.filterMap CmdEntry.result

/-- The callbacks called. -/
def calls (s : State) : List Callback := s.cbLog.map CbEntry.call

/-- Only one flag set. -/
def only (f : Flag) : Flags := Flags.clear.set f

/-! ### The entry points (95_test_vectors.md, families lifecycle, caller side, registration, dispatcher) -/

/-- V-L1 with V-B3: the fast-mode-plus words are the ones the spec writes out. -/
theorem test_init :
    look (exec .init { power with oracle := { power.oracle with enableQ := [true], rateQ := [48000000] } })
        (fun t => (bootWords t, t.initialized, t.bitrate, t.sourceClock, t.hw.irqEn)) =
      some ([0x28000000#32, 0x29000000#32, 0x1DC41800#32, 0x1E00900B#32, 0x27010000#32], true, 1000000, 48000000, true) := by decide

/-- R53: the logs are empty (exact) in the state INIT leaves. R49: its return is kept. -/
theorem test_init_leaves_the_logs_empty :
    look (exec .init { power with oracle := { power.oracle with enableQ := [true], rateQ := [48000000] } })
        (fun t => (words t, t.resultLog, t.bootResultLog)) =
      some ([], [], [{ caller := 0, op := .init, kind := .ok }]) := by decide

/-- V-L2. -/
theorem test_init_clock_fails :
    look (exec .init { power with oracle := { power.oracle with enableQ := [false] } })
        (fun t => (words t, t.initialized, t.resultLog)) =
      some ([0x28000000#32], false, [{ caller := 0, op := .init, kind := .clockFailed }]) := by decide

/-- V-L6. -/
theorem test_configure :
    look (exec (.configure false 2#4) up) (fun t => (words t, t.bitrate, t.resultLog)) =
      some ([0x1DC41800#32, 0x1E00900B#32], 1000000, [{ caller := 0, op := .configure, kind := .ok }]) := by decide

/-- V-L7. -/
theorem test_configure_other :
    look (exec (.configure false 5#4) up) (fun t => (words t, t.bitrate, t.resultLog)) =
      some ([], 0, [{ caller := 0, op := .configure, kind := .unsupported }]) := by decide

/-- V-C15. -/
theorem test_transfer_takes_the_lock :
    look (exec (.transfer 0x50#7 0#16) up) (fun t => (t.lock, getCaller t 0 |>.pc, words t)) =
      some (.held 0, 2, []) := by decide

/-- V-L5. -/
theorem test_transfer_before_init :
    look (exec (.transfer 0x50#7 1#16) power) (fun t => t.faults) = some [.notInitialized] := by decide

/-- V-R2. -/
theorem test_register_null :
    look (exec (.slaveRegister false 0#7 true) up) (fun t => (t.lock, t.resultLog)) =
      some (.free, [{ caller := 0, op := .slaveRegister, kind := .invalidConfig }]) := by decide

/-- V-R1. -/
theorem test_register_arms :
    (fun t => (words t, t.slaveState, t.lock))
        (advanceCaller 0 (inside .slaveRegister 2 (.register (some { addr7 := 0x42#7, addr10 := false, cb := 0 })) up)) =
      ([0x1FC20000#32, 0x20010000#32], .start, .free) := by decide

/-- V-R5. -/
theorem test_unregister_none :
    look (exec .slaveUnregister up) (fun t => (t.lock, t.resultLog)) =
      some (.free, [{ caller := 0, op := .slaveUnregister, kind := .invalidState }]) := by decide

/-- V-R6. -/
theorem test_unregister_disarms :
    (fun t => (words t, t.slaveState, t.slaveConfig, t.lock))
        (advanceCaller 0 (inside .slaveUnregister 2 .none (slave .start Flags.clear false))) =
      ([0x1F000000#32, 0x20000000#32, 0x260000FF#32], .idle, none, .free) := by decide

/-- V-D1. -/
theorem test_irq_master :
    look (exec .irq (master .start 2 0 (only .dr))) (fun t => (words t, t.masterState, t.hw.flags)) =
      some ([0x25000000#32, 0x14A00000#32, 0x26000001#32], .write, Flags.clear) := by decide

/-- V-D2. -/
theorem test_irq_spurious :
    look (exec .irq { up with hw := { up.hw with flags := { only .dr with dmac := true } } })
        (fun t => (words t, results t, t.hw.flags)) =
      some ([0x25000000#32, 0x260000FF#32], [.snapshot 0x041#9], Flags.clear) := by decide

/-! ### TRANSFER, its later sub-steps (V-C1 to V-C22) -/

/-- V-C2. -/
theorem test_combine_write_read :
    combine { up with callerMem := [(100, 0x01#8)] } [{ dir := .write, len := 1, buf := 100 }, { dir := .read, len := 2, buf := 200 }] =
      some ([0x01#8], 2, some { buf := 200, len := 2 }) := by decide

/-- V-C3, V-C4, V-C5, V-C8. -/
theorem test_combine_refused :
    combine up [{ dir := .read, len := 1, buf := 0 }, { dir := .write, len := 1, buf := 0 }] = none ∧
      combine up [{ dir := .read, len := 1, buf := 0 }, { dir := .read, len := 1, buf := 0 }] = none ∧
      combine up [{ dir := .write, len := 1, buf := 0 }, { dir := .write, len := 1, buf := 0 }] = none ∧ combine up [{ dir := .read, len := 257, buf := 0 }] = none := by decide

/-- V-C10, V-C11, V-C13. -/
theorem test_quick_address :
    quickAddress 0x50#7 [{ dir := .read, len := 0, buf := 0 }] 0 0 = 0xA1#8 ∧ quickAddress 0x50#7 [{ dir := .write, len := 0, buf := 0 }] 0 0 = 0xA0#8 ∧
      quickAddress 0x50#7 [{ dir := .write, len := 0, buf := 0 }, { dir := .read, len := 0, buf := 0 }] 0 0 = 0xA0#8 := by decide

/-- V-C2. -/
theorem test_transfer_fill :
    (fun t => (t.txBuffer, t.txCount, t.rxCount, t.deviceAddress, getCaller t 0 |>.pc))
        (advanceCaller 0 (inside .transfer 2 (.transfer 0x50#7 [{ dir := .write, len := 1, buf := 100 }, { dir := .read, len := 2, buf := 200 }])
          { up with callerMem := [(100, 0x01#8)] })) =
      ([(0, 0x01#8)], 1, 2, 0xA0#8, 4) := by decide

/-- R193, with thresholds. -/
theorem test_transfer_arm :
    (fun t => (words t, t.masterState, t.completion)) (advanceCaller 0 (inside .transfer 4 .none { up with completion := true })) =
      ([0x1C000000#32, 0x10000000#32], .start, false) := by decide

/-- V-C18. -/
theorem test_transfer_wake :
    (fun t => (t.completion, getCaller t 0 |>.pc)) (advanceCaller 0 (inside .transfer 5 .none { up with completion := true })) =
      (false, 6) := by decide

/-- V-C19. -/
theorem test_transfer_expire :
    (fun t => (words t, t.masterState, t.errorCode)) (expireCaller 0 (inside .transfer 5 .none (master .write 1 0 Flags.clear))) =
      ([0x18000000#32], .idle, .timeout) := by decide

/-- V-C21. -/
theorem test_transfer_copy :
    (fun t => t.callerMem)
        (advanceCaller 0 (inside .transfer 6 .none
          { received up [0x11#8, 0x22#8] with rxCount := 2, readDest := some { buf := 300, len := 4 } })) =
      [(300, 0x11#8), (301, 0x22#8)] := by decide

/-- R198. -/
theorem test_transfer_return :
    (fun t => (t.lock, t.readDest, t.resultLog)) (advanceCaller 0 (inside .transfer 7 .none { up with errorCode := .noAck })) =
      (.free, none, [{ caller := 0, op := .transfer, kind := .noAck }]) := by decide

/-- V-C16. -/
theorem test_lock_expiry :
    (fun t => t.resultLog)
        (expireCaller 0 (heldByOther (inside .transfer 1 (.transfer 0x50#7 []) up))) =
      [{ caller := 0, op := .transfer, kind := .busy }] := by decide

/-! ### The primitive commands (V-H1 to V-H17 and the examples of 40_hw_commands.md) -/

theorem test_hwStart :
    look (exec .hwStart up) (fun t => (t.hw.start, words t)) = some (true, [0x10000000#32]) := by decide

theorem test_hwStop :
    look (exec .hwStop up) (fun t => (t.hw.stop, words t)) = some (true, [0x11000000#32]) := by decide

theorem test_hwStall :
    look (exec .hwStallEn up) (fun t => (t.hw.stallEn, words t)) = some (true, [0x12000000#32]) ∧
      look (exec .hwStallDis { up with hw := { up.hw with stallEn := true } }) (fun t => (t.hw.stallEn, words t)) =
        some (false, [0x13000000#32]) := by decide

theorem test_hwSendAddr :
    look (exec (.hwSendAddr 0xA1#8) up) (fun t => (t.hw.dataOut, words t)) = some (0xA1#8, [0x14A10000#32]) := by decide

theorem test_hwDmaTx :
    look (exec (.hwDmaTx 2#16) { up with hw := { up.hw with dmaCount := 1 } })
        (fun t => (t.hw.dmaDir, t.hw.dmaLen, t.hw.dmaCount, t.hw.dmaActive, words t)) =
      some (.tx, 2, 0, true, [0x15000002#32]) := by decide

/-- V-H8. -/
theorem test_hwDmaRx :
    look (exec (.hwDmaRx 2#16) up)
        (fun t => (t.hw.dmaDir, t.hw.dmaLen, t.hw.dmaCount, t.hw.dmaActive, words t)) =
      some (.rx, 2, 0, true, [0x16000002#32]) := by decide

/-- R135 at length 0, which the block never issues. -/
theorem test_hwDmaTx_without_bytes :
    look (exec (.hwDmaTx 0#16) up) (fun t => (t.hw.dmaDir, t.hw.dmaLen, t.hw.dmaActive)) = some (.tx, 0, true) := by decide

/-- R136 above 256: it runs, whatever the length. -/
theorem test_hwDmaRx_beyond_256 :
    look (exec (.hwDmaRx 257#16) up)
        (fun t => (t.hw.dmaDir, t.hw.dmaCount, t.hw.dmaActive, words t, decide (t.hw.dmaLen ≤ 256))) =
      some (.rx, 0, true, [0x16000101#32], true) := by
  simp [look, after, exec, execHwDmaRx, hwDmaRx, words, armDma, setHw, logCmd, up, power, State.reset, encodeWord, packWord]
  exact dmaLength_le _

theorem test_hwDmaNackLast :
    look (exec .hwDmaNackLast up) (fun t => (t.hw.dmaNackLast, words t)) = some (true, [0x17000000#32]) := by decide

/-- V-H1. -/
theorem test_hwReset :
    look (exec .hwReset { received (slave .write { only .dr with sstop := true } false) [1#8, 2#8] with
          hw := { (received (slave .write { only .dr with sstop := true } false) [1#8, 2#8]).hw with
            start := true, stop := true, stallEn := true, ackMode := .nack, busBusy := true, dataIn := some 3#8 } })
        (fun t => t.hw) =
      some { Hw.reset with irqEn := true, clkOn := true, matchEn := true, matchIrqEn := true, slaveAddr := some 0x42#7 } := by decide

/-- V-H2. -/
theorem test_hwClearStatus :
    look (exec .hwClearStatus { up with hw := { up.hw with flags := { only .dr with nack := true, dmac := true } } })
        (fun t => (t.hw.flags, words t)) = some (only .dmac, [0x19000000#32]) := by decide

/-- V-H3. -/
theorem test_hwClearDma :
    look (exec .hwClearDma { up with hw := { up.hw with flags := only .dmac, dmaActive := true } })
        (fun t => (t.hw.flags, t.hw.dmaActive, words t)) = some (Flags.clear, true, [0x1A000000#32]) := by decide

/-- V-H6, V-H7. -/
theorem test_hwWaitBusFree :
    look (exec .hwWaitBusFree up) results = some [.spins (.free 0)] ∧
      look (exec .hwWaitBusFree { up with hw := { up.hw with busBusy := true } }) results = some [.spins .exhausted] := by decide

/-- V-H15. -/
theorem test_hwSetTimeout :
    look (exec .hwSetTimeout up) (fun t => (t.hw.toEn, t.hw.toThresholds, t.cmdLog)) =
      some (true, [7], [{ word := 0x1C000000#32, thresholds := some [7], result := none }]) := by decide

theorem test_hwSetBaud :
    look (exec (.hwSetBaud true 17#5 12#9) up) (fun t => (t.hw.div, t.hw.hold, t.hw.fmPlus, words t)) =
      some (12#9, 17#5, true, [0x1DC41800#32]) := by decide

theorem test_hwSetScl :
    look (exec (.hwSetScl 9#12 11#12) up) (fun t => (t.hw.sclHigh, t.hw.sclLow, words t)) =
      some (9#12, 11#12, [0x1E00900B#32]) := by decide

/-- V-H11, V-H12. -/
theorem test_hwSetSlaveAddr :
    look (exec (.hwSetSlaveAddr true 0x42#7) up) (fun t => (t.hw.matchEn, t.hw.slaveAddr, words t)) =
        some (true, some 0x42#7, [0x1FC20000#32]) ∧
      look (exec (.hwSetSlaveAddr false 0#7) (slave .start Flags.clear false))
        (fun t => (t.hw.matchEn, t.hw.slaveAddr, words t)) = some (false, none, [0x1F000000#32]) := by decide

theorem test_hwMatchIrq :
    look (exec (.hwMatchIrq false) (slave .start Flags.clear false)) (fun t => (t.hw.matchIrqEn, words t)) =
      some (false, [0x20000000#32]) := by decide

/-- V-H13. -/
theorem test_hwAckMode :
    look (exec (.hwAckMode true) up) (fun t => (t.hw.ackMode, words t)) = some (.nack, [0x21010000#32]) ∧
      look (exec (.hwAckMode false) up) (fun t => (t.hw.ackMode, words t)) = some (.ack, [0x21000000#32]) := by decide

/-- V-H14. -/
theorem test_hwWriteData :
    look (exec (.hwWriteData 0xFF#8) up) (fun t => (t.hw.dataOut, words t)) = some (0xFF#8, [0x22FF0000#32]) := by decide

theorem test_hwReadData :
    look (exec .hwReadData { up with hw := { up.hw with dataIn := some 0x77#8 } })
        (fun t => (words t, results t, t.hw.dataIn)) = some ([0x23000000#32], [.byte 0x77#8], some 0x77#8) := by decide

theorem test_hwReadDmaCount :
    look (exec .hwReadDmaCount (received up [1#8, 2#8])) (fun t => (words t, results t)) =
      some ([0x24000000#32], [.count 2]) := by decide

/-- R105: AM is bit 4, HWTO bit 7, XMIT bit 8. -/
theorem test_hwReadStatus :
    look (exec .hwReadStatus (slave .start { only .am with hwto := true } true)) (fun t => (words t, results t)) =
      some ([0x25000000#32], [.snapshot 0x190#9]) := by decide

/-- V-H4. -/
theorem test_hwAckStatus :
    look (exec (.hwAckStatus 0x41#8) { up with hw := { up.hw with flags := { only .dr with dmac := true, am := true } } })
        (fun t => (t.hw.flags, words t)) = some (only .am, [0x26000041#32]) := by decide

theorem test_hwIrqEnable :
    look (exec (.hwIrqEnable true) power) (fun t => (t.hw.irqEn, words t)) = some (true, [0x27010000#32]) := by decide

theorem test_clkEnable :
    look (exec .clkEnable { power with oracle := { power.oracle with enableQ := [true] } })
        (fun t => (t.hw.clkOn, words t, results t)) = some (true, [0x28000000#32], [.clock true]) := by decide

theorem test_clkGetRate :
    look (exec .clkGetRate { power with oracle := { power.oracle with rateQ := [48000000] } })
        (fun t => (words t, results t)) = some ([0x29000000#32], [.rate 48000000]) := by decide

theorem test_hwReadBusy :
    look (exec .hwReadBusy up) (fun t => (words t, results t)) = some ([0x2A000000#32], [.busy false]) := by decide

/-! ### The master rows: each IRQ of V-M1 to V-M21 without the snapshot read and the acknowledge -/

/-- V-M1. -/
theorem test_mHwto :
    look (exec .mHwto (master .write 2 0 (only .hwto))) (fun t => (words t, t.masterState, t.errorCode, t.completion)) =
      some ([0x18000000#32], .idle, .timeout, true) := by decide

/-- V-M3. -/
theorem test_mNack :
    look (exec .mNack (master .start 2 0 (only .nack))) (fun t => (words t, t.masterState, t.errorCode, t.completion)) =
      some ([0x11000000#32, 0x19000000#32, 0x1B000000#32, 0x1A000000#32], .idle, .noAck, true) := by decide

/-- V-M4. -/
theorem test_mBer :
    look (exec .mBer (master .read 0 2 (only .ber))) (fun t => (words t, t.masterState, t.errorCode, t.completion)) =
      some ([0x11000000#32, 0x19000000#32, 0x1B000000#32, 0x1A000000#32, 0x18000000#32], .idle, .busError, true) := by decide

/-- V-M6. -/
theorem test_mDrStartQuick :
    look (exec .mDrStartQuick { master .start 0 0 (only .dr) with deviceAddress := 0xA1#8 })
        (fun t => (words t, t.masterState)) = some ([0x12000000#32, 0x14A10000#32], .quick) := by decide

/-- V-M7. -/
theorem test_mDrStartRead :
    look (exec .mDrStartRead (master .start 0 2 (only .dr))) (fun t => (words t, t.masterState)) =
      some ([0x12000000#32, 0x14A10000#32], .read) := by decide

/-- V-M8. -/
theorem test_mDrStartWrite :
    look (exec .mDrStartWrite (master .start 2 0 (only .dr))) (fun t => (words t, t.masterState)) =
      some ([0x14A00000#32], .write) := by decide

/-- V-M9. -/
theorem test_mDrWrite :
    look (exec .mDrWrite (master .write 2 0 (only .dr))) (fun t => (words t, t.masterState)) =
      some ([0x15000002#32], .write) := by decide

/-- V-M10. -/
theorem test_mStallRead :
    look (exec .mStallRead (master .read 0 2 (only .stall))) (fun t => (words t, t.masterState)) =
      some ([0x17000000#32, 0x16000002#32, 0x13000000#32], .read) := by decide

/-- V-M11. -/
theorem test_mStallQuick :
    look (exec .mStallQuick (master .quick 0 0 (only .stall))) (fun t => (words t, t.masterState, t.errorCode, t.completion)) =
      some ([0x11000000#32], .idle, .ok, true) := by decide

/-- V-M12. -/
theorem test_mDmaWriteStop :
    look (exec .mDmaWriteStop (master .write 2 0 (only .dmac))) (fun t => (words t, t.masterState, t.errorCode, t.completion)) =
      some ([0x11000000#32], .idle, .ok, true) := by decide

/-- V-M13. -/
theorem test_mDmaWriteRestart :
    look (exec .mDmaWriteRestart (master .write 1 2 (only .dmac))) (fun t => (words t, t.masterState)) =
      some ([0x12000000#32, 0x10000000#32, 0x14A10000#32], .read) := by decide

/-- V-M14. -/
theorem test_mDmaRead :
    look (exec .mDmaRead (received (master .read 0 4 (only .dmac)) [1#8, 2#8, 3#8]))
        (fun t => (words t, results t, t.masterState, t.rxCount)) =
      some ([0x11000000#32, 0x24000000#32], [.count 3], .idle, 3) := by decide

/-- V-M19: the later group sees the live state. -/
theorem test_irq_groups_in_order :
    look (exec .irq (master .start 2 0 { only .dr with dmac := true })) (fun t => (words t, t.masterState, t.errorCode)) =
      some ([0x25000000#32, 0x14A00000#32, 0x11000000#32, 0x26000041#32], .idle, .ok) := by decide

/-- V-D6. -/
theorem test_irq_terminal_row_ends :
    look (exec .irq (master .quick 0 0 { only .stall with dmac := true })) (fun t => (words t, t.masterState)) =
      some ([0x25000000#32, 0x11000000#32, 0x26000048#32], .idle) := by decide

/-! ### The slave rows (V-S1 to V-S23) -/

/-- V-S18. -/
theorem test_sHwto :
    look (exec .sHwto (slave .read (only .hwto) false)) (fun t => (words t, t.slaveState, t.slaveErrors)) =
      some ([0x18000000#32], .start, [.slaveTimeout]) := by decide

/-- V-S16, V-S17. -/
theorem test_sBer :
    look (exec .sBer (slave .quick (only .ber) false)) (fun t => (words t, t.slaveState, t.slaveErrors)) =
        some ([0x18000000#32], .start, []) ∧
      look (exec .sBer (slave .start (only .ber) false)) (fun t => (words t, t.slaveState, t.slaveErrors)) =
        some ([0x18000000#32], .start, [.slaveBusError]) := by decide

/-- V-S14. -/
theorem test_sDmaRx_full :
    look (exec .sDmaRx { slave .write (only .dmac) false with
          hw := { (slave .write (only .dmac) false).hw with dmaLen := 256, dmaCount := 256 } })
        (fun t => (words t, results t, t.hw.ackMode)) =
      some ([0x24000000#32, 0x21010000#32], [.count 256], .nack) := by decide

/-- V-S13. -/
theorem test_sDmaRx_short :
    look (exec .sDmaRx { slave .write (only .dmac) false with
          hw := { (slave .write (only .dmac) false).hw with dmaLen := 256, dmaCount := 255 } })
        (fun t => (words t, results t, t.hw.ackMode)) = some ([0x24000000#32], [.count 255], .ack) := by decide

/-- V-S5. -/
theorem test_sAmTx :
    look (exec .sAmTx (answering (slave .start (only .am) true) [.value 0 0xAA#8, .value 0 0xBB#8, .value 1 0#8]))
        (fun t => (words t, calls t, t.slaveState)) =
        some ([0x15000002#32], [.readRequested, .readProcessed 1, .readProcessed 2], .read) ∧
      look (exec .sAmTx (answering (slave .start (only .am) true) [.value 0 0xAA#8, .value 0 0xBB#8, .value 1 0#8]))
        (fun t => (t.txBuffer, t.txCount)) = some ([(0, 0xAA#8), (1, 0xBB#8)], 2) := by decide

/-- V-S7 with nothing to send: the receive stays latched (R276). -/
theorem test_sAmTx_after_a_receive :
    look (exec .sAmTx (answering (received (slave .write (only .am) true) [0x10#8])
          [.value 0 0#8, .value 1 0#8]))
        (fun t => (words t, calls t, t.slaveState, t.txCount, t.hw.dmaActive)) =
      some ([0x24000000#32], [.writeReceived 0x10#8, .readRequested], .quick, 0, true) := by decide

/-- V-S1. -/
theorem test_sAmRx :
    look (exec .sAmRx (answering (slave .start (only .am) false) [.value 0 0#8]))
        (fun t => (words t, calls t, t.slaveState)) =
      some ([0x21000000#32, 0x16000100#32], [.writeRequested], .write) := by decide

/-- V-S12 with one buffered byte; a non-zero status changes nothing. -/
theorem test_sDrOverflow :
    look (exec .sDrOverflow (answering { received (slave .write (only .dr) false) [1#8] with
          hw := { (received (slave .write (only .dr) false) [1#8]).hw with dataIn := some 0x77#8 } }
          [.value 5 0#8, .value 5 0#8]))
        (fun t => (words t, calls t, t.slaveState)) =
      some ([0x24000000#32, 0x23000000#32], [.writeReceived 1#8, .writeReceived 0x77#8], .start) := by decide

/-- V-S10. -/
theorem test_sDrFill :
    look (exec .sDrFill (slave .read (only .dr) false)) (fun t => (words t, t.slaveState, t.hw.dataOut)) =
      some ([0x22FF0000#32], .read, 0xFF#8) := by decide

/-- V-S2. -/
theorem test_sStop :
    look (exec .sStop (answering (received (slave .write (only .sstop) false) [1#8, 2#8, 3#8])
          [.value 0 0#8, .value 0 0#8, .value 0 0#8, .value 0 0#8]))
        (fun t => (words t, calls t, t.slaveState)) =
      some ([0x24000000#32], [.writeReceived 1#8, .writeReceived 2#8, .writeReceived 3#8, .stop], .start) := by decide

/-- V-S23: no acknowledge is issued. -/
theorem test_irq_violation :
    look (exec .irq (answering (slave .start (only .am) true) [.violation]))
        (fun t => (words t, calls t, t.faults)) =
      some ([0x25000000#32], [.readRequested], [.callbackReentry]) := by decide

/-- V-H17. -/
theorem test_am_needs_its_own_enable :
    irqPending { up with hw := { up.hw with flags := only .am } } = false ∧
      irqPending { up with hw := { up.hw with flags := only .am, matchIrqEn := true } } = true := by decide

/-! ### The baud calculator (V-B1 to V-B16) -/

/-- V-B4, V-B10. -/
theorem test_baud_fast_plus :
    (baud 16000000 1000000).map (fun b => (b.div, b.hold, b.sclHigh, b.sclLow, b.fmPlus)) =
        some (5#9, 7#5, 2#12, 4#12, true) ∧
      (baud 2000000000 1000000).map (fun b => (b.div, b.sclHigh, b.sclLow)) = some (255#9, 252#12, 254#12) := by decide

/-- V-B2, V-B6, V-B16, V-B11. -/
theorem test_baud_standard :
    (baud 48000000 400000).map (fun b => (b.div, b.hold, b.fmPlus)) = some (30#9, 17#5, false) ∧
      (baud 400000000 100000).map BaudFields.div = some 511#9 ∧ (baud 0 100000).map BaudFields.div = some 8#9 ∧
      (baud 48000000 200000).isNone = true := by decide

/-- V-B12 to V-B15. -/
theorem test_hold_tiers :
    holdTier 40000000 = 17#5 ∧ holdTier 39999999 = 9#5 ∧ holdTier 20000000 = 9#5 ∧ holdTier 19999999 = 7#5 := by decide

/-! ### The controller agent (60_exceptions.md R331) -/

theorem test_env_dma_receive :
    (fun t => (t.rxBuffer, t.hw.dmaCount, t.busLog))
        (envStep (.dmaReceive 0x22#8) (received (slave .write Flags.clear false) [0x11#8])) =
      ([(0, 0x11#8), (1, 0x22#8)], 2, [.rxByte 0x22#8]) := by decide

theorem test_env_dma_complete :
    (fun t => (t.hw.flags, t.hw.dmaActive, t.busLog)) (envStep .dmaComplete (received (slave .write Flags.clear false) [1#8])) =
      (only .dmac, false, [.dmaDone]) := by decide

theorem test_env_disabled :
    envStep (.raise .stall) up = up ∧ envStep .finishStart up = up ∧ envStep (.setBusy true) power = power := by decide
/-! ## Witnesses: for each statement with hypotheses, states and operands that meet them together -/

/-- An issuer for a word on the schedule. -/
def issuer : Issue := { caller := 0, msgs := [], callbacks := 0 }

/-- A state whose next input is this one. -/
def scheduled (x : Input) (s : State) : State := { s with schedule := [x] }

/-! ### Encodings and the step -/

theorem witness_EncodedInstructionsDecodeBack :
    Instr.isKeyRow (.hwSetScl 0xFFF#12 0xFFF#12) = false ∧ Instr.isKeyRow .sStop = true := by decide

theorem witness_DecodedWordsEncodeBack :
    decodeWord 0x1FC20000#32 = .ok (.hwSetSlaveAddr true 0x42#7) := by decide

/-- One opcode at each end of each range. -/
theorem witness_ReservedOpcodesAreRefused :
    ∀ o ∈ [0x00#8, 0x07#8, 0x0F#8, 0x2B#8, 0xFF#8],
      (scheduled (.word (o ++ 0#24) issuer) up).faults = [] ∧
      (scheduled (.word (o ++ 0#24) issuer) up).schedule = .word (o ++ 0#24) issuer :: [] ∧
      ((OpWord.opcode (o ++ 0#24)).toNat = 0 ∨
        (7 ≤ (OpWord.opcode (o ++ 0#24)).toNat ∧ (OpWord.opcode (o ++ 0#24)).toNat ≤ 0x0F) ∨
        0x2B ≤ (OpWord.opcode (o ++ 0#24)).toNat) := by decide

/-- HW_START with a non-zero unused bit (V-E10). -/
theorem witness_OtherWordsAreRefused :
    (scheduled (.word 0x10000001#32 issuer) up).faults = [] ∧
      (scheduled (.word 0x10000001#32 issuer) up).schedule = .word 0x10000001#32 issuer :: [] ∧
      ∀ i : Instr, i.isKeyRow = false → encodeWord i ≠ 0x10000001#32 := by
  refine ⟨rfl, rfl, fun i hk h => ?_⟩
  have ho := congrArg OpWord.opcode h
  have ha := congrArg OpWord.a24 h
  rw [show OpWord.opcode 0x10000001#32 = 0x10#8 from rfl] at ho
  rw [show OpWord.a24 0x10000001#32 = 1#24 from rfl] at ha
  cases i
  case hwStart => exact absurd ha (by decide)
  case hwSetScl hi lo =>
    rw [show OpWord.opcode (encodeWord (.hwSetScl hi lo)) = 0x1E#8 from opcode_append _ _] at ho
    exact absurd ho (by decide)
  case hwSetBaud fm hold div =>
    rw [show OpWord.opcode (encodeWord (.hwSetBaud fm hold div)) = 0x1D#8 from opcode_append _ _] at ho
    exact absurd ho (by decide)
  all_goals first
    | exact Bool.noConfusion hk
    | (simp only [encodeWord, opcode_packWord] at ho; exact absurd ho (by decide))

theorem witness_GroupRowsAreExclusive :
    rowMDrStartRead ∈ rowTable ∧ rowMDrStartRead.role = rowMDrStartRead.role ∧
      rowFires rowMDrStartRead 0x001#9 (master .start 0 2 (only .dr)) = true := ⟨List.mem_of_getElem? (i := 4) rfl, rfl, by decide⟩

theorem witness_IllegalKeysFireNothing :
    ([0x0200#16, 0x0800#16, 0x5000#16, 0x7004#16].all
        (fun k => decide (k.extractLsb' 9 3 ≠ 0#3 ∨ 5 ≤ (k.extractLsb' 12 3).toNat))) = true ∧
      (scheduled (.key 0x5000#16) up).faults = [] ∧
      (scheduled (.key 0x5000#16) up).schedule = .key 0x5000#16 :: [] := by decide

/-- The lowest command, before and after INIT, and the highest entry point. -/
theorem witness_StepRunsTheDecodedWord :
    (∀ s ∈ [up, power],
        (scheduled (.word 0x10000000#32 issuer) s).faults = [] ∧
        (scheduled (.word 0x10000000#32 issuer) s).schedule = .word 0x10000000#32 issuer :: []) ∧
      decodeWord 0x10000000#32 = .ok .hwStart ∧ up.initialized = true ∧ power.initialized = false ∧
      0x10 ≤ (OpWord.opcode 0x10000000#32).toNat ∧
      decodeWord 0x06000000#32 = .ok .irq ∧ (OpWord.opcode 0x06000000#32).toNat < 0x10 := by decide

/-- A row that is not the first of its key (V-K1). -/
theorem witness_StepRunsTheSelectedRow :
    (scheduled (.key 0x1001#16) (master .start 2 0 (only .dr))).faults = [] ∧
      (scheduled (.key 0x1001#16) (master .start 2 0 (only .dr))).initialized = true ∧ power.initialized = false ∧
      rowsOfKey 0x1001#16 = [rowMDrStartQuick, rowMDrStartRead] ++ rowMDrStartWrite :: [] ∧
      (∀ q ∈ [rowMDrStartQuick, rowMDrStartRead],
        guardHolds q.guard (scheduled (.key 0x1001#16) (master .start 2 0 (only .dr))) = false) ∧
      guardHolds rowMDrStartWrite.guard (scheduled (.key 0x1001#16) (master .start 2 0 (only .dr))) = true := by decide

/-- M_HWTO without thresholds. -/
theorem witness_StepRunsTheSelectedRow_none :
    ∀ q ∈ rowsOfKey 0x2080#16,
      guardHolds q.guard { up with cfg := { params with hwTimeout := none } } = false := by decide

theorem witness_StepTakesTheAgentsTurn :
    up.faults = [] ∧ up.schedule = [] ∧ (scheduled (.advance 0) up).schedule = .advance 0 :: [] ∧
      (scheduled (.expire 0) up).schedule = .expire 0 :: [] ∧
      (scheduled (.env .dmaComplete) up).schedule = .env .dmaComplete :: [] ∧
      (scheduled (.store 0 1#8) up).schedule = .store 0 1#8 :: [] := by decide

theorem witness_FaultedMachineHasNoStep :
    ({ up with faults := [.doubleInit] } : State).faults = .doubleInit :: [] := by decide

theorem witness_StepKeepsTheInvariant :
    State.Inv (scheduled (.word 0x10000000#32 issuer) up) ∧
      ∃ t, step (scheduled (.word 0x10000000#32 issuer) up) = .next t := by
  refine ⟨?_, ?_⟩
  · constructor
    · exact ⟨⟨List.Pairwise.nil, by simp [scheduled, up, power, State.reset]⟩, by simp [scheduled, up, power, State.reset],
        ⟨List.Pairwise.nil, by simp [scheduled, up, power, State.reset]⟩, by simp [scheduled, up, power, State.reset],
        ⟨List.Pairwise.nil, by simp [scheduled, up, power, State.reset]⟩⟩
    · exact ⟨List.Pairwise.nil, by simp [scheduled, up, power, State.reset]⟩
    · decide
    · decide
    · decide
    · intro a h
      exact absurd h (by simp [getCaller, scheduled, up, power, State.reset, Caller.idle])
    · intro a f h
      simp [getCaller, scheduled, up, power, State.reset, Caller.idle] at h
    · intro h; exact absurd rfl h
    · decide
    · intro h; exact absurd h (by decide)
    · intro h; exact absurd h (by decide)
    · intro _ a f h
      simp [getCaller, scheduled, up, power, State.reset, Caller.idle, callFrame] at h
  · exact ⟨_, rfl⟩

/-! ### The commands -/

theorem witness_DataCommands :
    ({ up with hw := { up.hw with dataIn := some 0x77#8 } } : State).hw.dataIn = some 0x77#8 ∧ up.hw.dataIn = none := by decide

theorem witness_DmaArmCommands :
    1 ≤ (1#16).toNat ∧ (1#16).toNat ≤ 256 ∧ 1 ≤ (256#16).toNat ∧ (256#16).toNat ≤ 256 := by decide

theorem witness_CommandEdgesTheModelChose :
    (∀ n ∈ [0#16, 257#16, 0xFFFF#16], n = 0#16 ∨ 256 < n.toNat) ∧ callerFree up ∧ up.initialized = true ∧
      up.issue.msgs.length ≠ (1#16).toNat ∧ up.lock = .free ∧ callerFree (heldByOther up) ∧
      (heldByOther up).issue.msgs.length ≠ (1#16).toNat ∧ (heldByOther up).lock ≠ .free ∧
      ({ up with cfg := { params with hwTimeout := none } } : State).cfg.hwTimeout = none := ⟨by simp, by decide⟩

theorem witness_ConfigurationCommands :
    up.cfg.hwTimeout = some [7] := by decide

theorem witness_ClockCommands :
    clockAnswer { power with oracle := { power.oracle with enableQ := [true] } } = true ∧
      clockAnswer { power with oracle := { power.oracle with enableQ := [false] } } = false := by decide

/-! ### The entry points -/

/-- Power-on with the clock's answers queued. -/
def clocked (ok : Bool) (rate : Nat) : State :=
  { power with oracle := { power.oracle with enableQ := [ok], rateQ := [rate] } }

theorem witness_InitBringsTheInstanceUp :
    callerFree (clocked true 48000000) ∧ (clocked true 48000000).initialized = false ∧
      clockAnswer (clocked true 48000000) = true ∧
      rateAnswer (usedClockAnswer (clocked true 48000000)) = 48000000 ∧
      baud 48000000 (clocked true 48000000).cfg.initialSpeed =
        some { div := 12#9, sclHigh := 9#12, sclLow := 11#12, hold := 17#5, fmPlus := true } := by decide

theorem witness_FailedInitLeavesTheInstanceDown :
    callerFree (clocked false 0) ∧ (clocked false 0).initialized = false ∧ clockAnswer (clocked false 0) = false ∧
      clockAnswer { clocked true 9 with cfg := { params with initialSpeed := 200000 } } = true ∧
      rateAnswer (usedClockAnswer { clocked true 9 with cfg := { params with initialSpeed := 200000 } }) = 9 ∧
      (200000 ≠ 100000 ∧ 200000 ≠ 400000 ∧ 200000 ≠ 1000000) := by decide

theorem witness_MisplacedEntryPointsFault :
    callerFree up ∧ up.initialized = true ∧ callerFree power ∧ power.initialized = false := by decide

theorem witness_ConfigureOutcomes :
    callerFree up ∧ up.initialized = true ∧ power.initialized = false ∧ 3 ≤ (3#4).toNat ∧ (2#4).toNat < 3 ∧
      (heldByOther up).lock ≠ .free ∧ (master .start 1 0 Flags.clear).masterState ≠ .idle ∧
      (slave .quick Flags.clear false).slaveState = .quick ∧
      (up.lock = .free ∧ up.masterState = .idle ∧ up.slaveState = .idle) ∧
      (slave .start Flags.clear false).slaveState = .start ∧
      ((2#4 = 0#4 ∧ 1000000 = 100000) ∨ (2#4 = 1#4 ∧ 1000000 = 400000) ∨ (2#4 = 2#4 ∧ 1000000 = 1000000)) := by decide

theorem witness_TransferTakesTheLockOrWaits :
    callerFree up ∧ up.initialized = true ∧ up.issue.msgs.length = (0#16).toNat ∧ up.lock = .free ∧
      callerFree (heldByOther up) ∧ (heldByOther up).lock ≠ .free := by decide

theorem witness_RegistrationChecksThenLocks :
    callerFree up ∧ up.initialized = true ∧ up.lock = .free ∧ (heldByOther up).lock ≠ .free ∧
      up.slaveConfig = none ∧
      (slave .start Flags.clear false).slaveConfig ≠ none ∧ callerFree (slave .start Flags.clear false) ∧
      (slave .start Flags.clear false).masterState = .idle ∧ (slave .start Flags.clear false).lock = .free ∧
      ({ slave .start Flags.clear false with masterState := .write } : State).masterState ≠ .idle ∧
      (heldByOther (slave .start Flags.clear false)).lock ≠ .free := by decide

theorem witness_DisabledInputsChangeNothing :
    (getCaller (heldByOther (inside .transfer 1 .none up)) 0).op ≠ none ∧
      (heldByOther (inside .transfer 1 .none up)).lock ≠ .held 0 ∧
      (getCaller (enterCall 0 .slaveUnregister .none (inside .transfer 4 .none up)) 0).outer ≠ none ∧
      (inside .transfer 5 .none up).lock = .held 0 ∧ (getCaller (inside .transfer 5 .none up) 0).pc = 5 ∧
      power.initialized = false ∧ irqPending up = false ∧
      (rowOf? .mNack = some rowMNack ∧ routedTo rowMNack.role up = false) ∧
      (rowOf? .mDrWrite = some rowMDrWrite ∧
        rowFires rowMDrWrite (rowMDrWrite.keyMatch.extractLsb' 0 9) (master .start 2 0 (only .dr)) = false) ∧
      envEnabled up.hw .dmaComplete = false := by decide

/-! ### The callers' later sub-steps -/

theorem witness_LockWaitAcquiresOrExpires :
    atStep { inside .transfer 1 .none up with lock := .free } 0 .transfer 1 .none ∧
      ({ inside .transfer 1 .none up with lock := .free } : State).lock = .free ∧
      atStep (heldByOther (inside .slaveUnregister 1 .none up)) 0 .slaveUnregister 1 .none ∧
      (heldByOther (inside .slaveUnregister 1 .none up)).lock ≠ .free ∧
      (let f : Frame := { op := .transfer, pc := 4, args := .none };
      let s := setCaller 0 { inStep .slaveUnregister 1 .none with outer := some f } { up with lock := .held 0 };
      getCaller s 0 = { inStep .slaveUnregister 1 .none with outer := some f } ∧ s.lock ≠ .free) := by decide

theorem witness_SecondCallWaitsOnItself :
    atStep (inside .transfer 4 .none (slave .start Flags.clear false)) 0 .transfer 4 .none ∧
      (inside .transfer 4 .none (slave .start Flags.clear false)).lock = .held 0 ∧
      (slave .start Flags.clear false).initialized = true ∧
      (slave .start Flags.clear false).issue.caller = 0 ∧ (slave .start Flags.clear false).issue.msgs.length = (0#16).toNat ∧
      (slave .start Flags.clear false).slaveConfig ≠ none ∧ (slave .start Flags.clear false).masterState = .idle := by decide

/-- The longest segments, and one byte more (V-C7, V-C9). -/
theorem witness_TransferFillsTheInstance :
    (let msgs := [({ dir := .write, len := 256, buf := 0 } : Message), { dir := .read, len := 256, buf := 0 }];
      let s := inside .transfer 2 (.transfer 0x50#7 msgs) up;
      atStep s 0 .transfer 2 (.transfer 0x50#7 msgs) ∧ (combine s msgs).isSome = true) ∧
    (let msgs := [({ dir := .write, len := 257, buf := 0 } : Message)];
      let s := inside .transfer 2 (.transfer 0x50#7 msgs) up;
      atStep s 0 .transfer 2 (.transfer 0x50#7 msgs) ∧ combine s msgs = none) := by
  refine ⟨⟨by decide, ?_⟩, by decide, ?_⟩ <;>
    simp [combine, combineLoop, messageBytes, bufCap, inside, up, power, params]

theorem witness_CombineAcceptsTheShapes :
    up.cfg.concatAdjacentWrites = false ∧
      ({ up with cfg := { params with concatAdjacentWrites := true } } : State).cfg.concatAdjacentWrites = true ∧
      (∀ m ∈ [({ dir := .write, len := 1, buf := 0 } : Message), { dir := .write, len := 2, buf := 9 }], m.dir = .write) ∧
      ({ dir := .read, len := 1, buf := 0 } : Message).dir = .read ∧
      [({ dir := .write, len := 1, buf := 0 } : Message)] ≠ [] := by decide

theorem witness_ArmStartsTheTransaction :
    atStep (inside .transfer 4 .none up) 0 .transfer 4 .none ∧ (inside .transfer 4 .none up).cfg.hwTimeout = some [7] ∧
      ({ inside .transfer 4 .none up with cfg := { params with hwTimeout := none } } : State).cfg.hwTimeout = none := by decide

theorem witness_TransferWakesOrExpires :
    atStep (inside .transfer 5 .none up) 0 .transfer 5 .none ∧ (inside .transfer 5 .none up).completion = false ∧
      (inside .transfer 5 .none { up with completion := true }).completion = true ∧
      (inside .transfer 5 .none up).issue.caller = 0 := by decide

theorem witness_CopyOutDeliversTheBytes :
    (let s := inside .transfer 6 .none
        { received up [0x11#8, 0x22#8] with rxCount := 2, readDest := some { buf := 300, len := 4 } };
      atStep s 0 .transfer 6 .none ∧ s.errorCode = .ok ∧ s.readDest = some { buf := 300, len := 4 } ∧
      Memory.wf callerUnlisted s.callerMem ∧ [0x11#8, 0x22#8].length = s.rxCount ∧
      (∀ i, i < 2 → bufRead s.rxBuffer i = [0x11#8, 0x22#8][i]?)) ∧
    (inside .transfer 6 .none { up with errorCode := .noAck }).errorCode ≠ .ok ∧
    (let s := inside .transfer 6 .none
        { received up [0x11#8] with rxCount := 2, readDest := some { buf := 300, len := 4 } };
      atStep s 0 .transfer 6 .none ∧ s.errorCode = .ok ∧ s.readDest = some { buf := 300, len := 4 } ∧
      Memory.wf callerUnlisted s.callerMem ∧ [0x11#8].length < s.rxCount ∧
      (∀ i, i < 1 → bufRead s.rxBuffer i = [0x11#8][i]?) ∧ bufRead s.rxBuffer 1 = none) := by decide

theorem witness_TransferReturnsTheErrorCode :
    atStep (inside .transfer 7 .none up) 0 .transfer 7 .none := by decide

theorem witness_RegistrationArmsAndDisarms :
    (let cfg : SlaveConfig := { addr7 := 0x42#7, addr10 := false, cb := 0 };
      atStep (inside .slaveRegister 2 (.register (some cfg)) up) 0 .slaveRegister 2 (.register (some cfg)) ∧
      (inside .slaveRegister 2 (.register (some cfg)) up).slaveConfig = none ∧
      atStep (inside .slaveRegister 2 (.register (some cfg)) (slave .start Flags.clear false)) 0 .slaveRegister 2
        (.register (some cfg)) ∧
      (inside .slaveRegister 2 (.register (some cfg)) (slave .start Flags.clear false)).slaveConfig ≠ none) ∧
      (∀ s ∈ [up, slave .start Flags.clear false, slave .write Flags.clear false],
        atStep (inside .slaveUnregister 2 .none s) 0 .slaveUnregister 2 .none) ∧
      (inside .slaveUnregister 2 .none up).slaveConfig = none ∧
      ((slave .write Flags.clear false).slaveConfig ≠ none ∧ (slave .write Flags.clear false).slaveState = .write) ∧
      ((slave .start Flags.clear false).slaveConfig ≠ none ∧ (slave .start Flags.clear false).masterState = .idle ∧
        (slave .start Flags.clear false).slaveState = .start) := by decide

/-! ### The interrupt -/

theorem witness_SpuriousInterruptClearsTheFlags :
    irqReady { up with hw := { up.hw with flags := only .dmac } } ∧ up.masterState = .idle ∧ up.slaveConfig = none := by decide

theorem witness_InterruptRunsTheFiringRow :
    (let s := master .start 2 0 (only .dr);
      irqReady s ∧ s.hw.flags = Flags.set .dr Flags.clear ∧ rowOf? .mDrStartWrite = some rowMDrStartWrite ∧
      routedTo rowMDrStartWrite.role s = true ∧ rowFires rowMDrStartWrite (snapshot s) s = true ∧
      ∃ u, exec .mDrStartWrite
          { s with cmdLog := s.cmdLog ++ [readCmd 0x25000000#32 (.snapshot (snapshot s))] } = .next u ∧
        u.faults = s.faults) := ⟨by decide, by decide, by decide, by decide, by decide, _, rfl, rfl⟩

theorem witness_InterruptRunsTheFiringRow_slave :
    (let s := answering (slave .start (only .am) false) [.value 0 0#8];
      irqReady s ∧ s.hw.flags = Flags.set .am Flags.clear ∧ rowOf? .sAmRx = some rowSAmRx ∧
      routedTo rowSAmRx.role s = true ∧ rowFires rowSAmRx (snapshot s) s = true ∧
      ∃ u, exec .sAmRx
          { s with cmdLog := s.cmdLog ++ [readCmd 0x25000000#32 (.snapshot (snapshot s))] } = .next u ∧
        u.faults = s.faults) := ⟨by decide, by decide, by decide, by decide, by decide, _, rfl, rfl⟩

theorem witness_MasterInterruptKeepsTheSlaveSide :
    irqReady (master .write 2 0 { only .am with sstop := true }) ∧
      (master .write 2 0 { only .am with sstop := true }).masterState ≠ .idle := by decide

theorem witness_SlaveInterruptKeepsTheMasterSide :
    irqReady (slave .write { only .dmac with sstop := true } false) ∧
      slaveActive (slave .write { only .dmac with sstop := true } false) := by decide

theorem witness_MasterReportsTheFirstError :
    irqReady (master .write 2 0 { only .hwto with nack := true, ber := true }) ∧
      (master .write 2 0 { only .hwto with nack := true, ber := true }).cfg.hwTimeout ≠ none ∧
      irqReady (master .write 2 0 { only .nack with ber := true }) ∧
      (master .write 2 0 { only .nack with ber := true }).hw.flags.hwto = false ∧
      irqReady (master .read 0 2 (only .ber)) ∧ (master .read 0 2 (only .ber)).hw.flags.nack = false ∧
      (master .read 0 2 (only .ber)).masterState ≠ .idle := by decide

/-- Each clause, the fourth from V-S9. -/
theorem witness_SlaveTakesItsEventsInOrder :
    (let s := slave .read { only .hwto with ber := true, sstop := true } false;
      irqReady s ∧ slaveActive s ∧ s.hw.flags.hwto = true ∧ s.cfg.hwTimeout ≠ none) ∧
    (∀ p ∈ [Phase.quick, .start],
      (let s := slave p { only .ber with am := true, sstop := true } true;
        irqReady s ∧ slaveActive s ∧ s.hw.flags.hwto = false ∧ s.hw.flags.ber = true)) ∧
    (let s := answering (received (slave .write { only .dmac with sstop := true } false) [1#8])
        [.value 0 0#8, .value 0 0#8];
      irqReady s ∧ slaveActive s ∧ s.hw.flags.hwto = false ∧ s.hw.flags.ber = false ∧ s.hw.flags.dmac = true ∧
      s.hw.flags.am = false ∧ s.hw.flags.dr = false ∧ s.hw.flags.sstop = true ∧ s.slaveState = .write ∧
      receivedBytes s [1#8] ∧ [(0, 0#8)].length = [1#8].length ∧
      s.oracle.answerQ = valueAnswers [(0, 0#8)] ++ CallbackAnswer.value 0 0#8 :: []) ∧
    (let s := answering (slave .start { only .am with dr := true } false) [.value 0 0#8, .value 0 0#8];
      irqReady s ∧ slaveActive s ∧ s.hw.flags.hwto = false ∧ s.hw.flags.ber = false ∧ s.hw.flags.dmac = false ∧
      s.hw.flags.am = true ∧ s.hw.xmit = false ∧ s.hw.flags.dr = true ∧ s.hw.flags.sstop = false ∧
      s.oracle.answerQ = .value 0 0#8 :: .value 0 0#8 :: []) := by
  refine ⟨by decide, by decide, ⟨by decide, by decide, by decide, by decide, by decide, by decide, by decide, by decide,
    by decide, ⟨rfl, by decide⟩, by decide, by decide⟩, by decide⟩

theorem witness_MasterSignalsExactlyWhenItEnds :
    (let s := master .write 2 0 (only .dmac);
      irqReady s ∧ s.masterState ≠ .idle ∧ s.completion = false ∧ ∃ t, exec .irq s = .next t) := ⟨by decide, by decide, by decide, _, rfl⟩

/-! ### The handler rows -/

theorem witness_MasterErrorRows :
    (master .write 2 0 (only .hwto)).masterState ≠ .idle ∧ (master .write 2 0 (only .hwto)).cfg.hwTimeout ≠ none := by decide

theorem witness_MasterAddressRows :
    (∀ s ∈ [master .start 0 0 Flags.clear, master .start 0 1 Flags.clear, master .start 256 256 Flags.clear],
        s.masterState = .start) ∧
      ((master .start 0 0 Flags.clear).txCount = 0 ∧ (master .start 0 0 Flags.clear).rxCount = 0) ∧
      ((master .start 0 1 Flags.clear).txCount = 0 ∧ 0 < (master .start 0 1 Flags.clear).rxCount) ∧
      0 < (master .start 256 256 Flags.clear).txCount := by decide

theorem witness_MasterSegmentRows :
    ((master .write 256 0 Flags.clear).masterState = .write ∧ (master .write 256 0 Flags.clear).txCount ≤ 256 ∧
        (master .write 256 0 Flags.clear).rxCount = 0) ∧
      ((master .read 0 256 Flags.clear).masterState = .read ∧ (master .read 0 256 Flags.clear).rxCount ≤ 256) ∧
      (master .quick 0 0 Flags.clear).masterState = .quick ∧
      ((master .write 1 1 Flags.clear).masterState = .write ∧ 0 < (master .write 1 1 Flags.clear).rxCount) := by decide

theorem witness_SlaveErrorRows :
    slaveActive (slave .quick Flags.clear false) ∧ (slave .quick Flags.clear false).cfg.hwTimeout ≠ none := by decide

theorem witness_SlaveReceiveRows :
    slaveActive (slave .write Flags.clear false) ∧ (slave .write Flags.clear false).slaveState = .write ∧
      ({ (slave .write Flags.clear false).hw with dmaCount := 256 } : Hw).dmaCount = 256 ∧
      (slave .write Flags.clear false).hw.dmaCount ≠ 256 ∧
      callbackAnswer (answering (slave .start Flags.clear false) [.value 0 0#8]) = .value 0 0#8 ∧
      slaveActive (slave .read Flags.clear false) ∧ (slave .read Flags.clear false).slaveState ≠ .write := by decide

/-- V-S7. -/
theorem witness_SlaveTransmitPrefillsTheReply :
    (let s := answering (received (slave .write Flags.clear true) [0x10#8]) [.value 0 1#8, .value 0 0x55#8, .value 1 0#8];
      slaveActive s ∧ (s.slaveState = .write → receivedBytes s [0x10#8]) ∧ (s.slaveState ≠ .write → [0x10#8] = []) ∧
      [(0, 1#8)].length = [0x10#8].length ∧ [0x55#8].length ≤ 256 ∧
      ([0x55#8].length = 256 ∨ ∃ st b q, st ≠ 0 ∧ [CallbackAnswer.value 1 0#8] = CallbackAnswer.value st b :: q) ∧
      s.oracle.answerQ =
        valueAnswers [(0, 1#8)] ++ valueAnswers ([0x55#8].map (fun b => (0, b))) ++ [.value 1 0#8]) := ⟨by decide, fun _ => ⟨rfl, by decide⟩, by decide, by decide, by decide, .inr ⟨1, 0#8, [], by decide, rfl⟩, by decide⟩

/-- V-S4. -/
theorem witness_SlaveTransmitPrefillsTheReply_nothing :
    (let s := answering (slave .start Flags.clear true) [.value 1 0#8];
      slaveActive s ∧ s.slaveState ≠ .write ∧ ([] : List Byte).length ≤ 256 ∧
      s.oracle.answerQ = valueAnswers [] ++ valueAnswers (([] : List Byte).map (fun b => (0, b))) ++ [.value 1 0#8]) := by decide

/-- V-S6. -/
theorem witness_SlaveTransmitPrefillsTheReply_full :
    (let s := answering (slave .start Flags.clear true) (List.replicate 256 (.value 0 0#8));
      slaveActive s ∧ (List.replicate 256 0#8).length = 256 ∧
      s.oracle.answerQ =
        valueAnswers [] ++ valueAnswers ((List.replicate 256 0#8).map (fun b => (0, b))) ++ []) := ⟨by decide, List.length_replicate, by
    simp only [valueAnswers, List.map_replicate, List.map_nil, List.nil_append, List.append_nil]; rfl⟩

theorem witness_SlaveOverflowDeliversEveryByte :
    (let s := answering (received (slave .write Flags.clear false) [1#8]) [.value 0 0#8, .value 5 0#8];
      slaveActive s ∧ s.slaveState = .write ∧ receivedBytes s [1#8] ∧
      [(0, 0#8), (5, 0#8)].length = [1#8].length + 1 ∧
      s.oracle.answerQ = valueAnswers [(0, 0#8), (5, 0#8)] ++ []) := ⟨by decide, by decide, ⟨rfl, by decide⟩, by decide, by decide⟩

theorem witness_SlaveStopEndsTheTransaction :
    (let s := answering (received (slave .write Flags.clear false) [1#8]) [.value 0 0#8, .value 0 0#8];
      slaveActive s ∧ s.slaveState = .write ∧ receivedBytes s [1#8] ∧ [(0, 0#8)].length = [1#8].length ∧
      s.oracle.answerQ = valueAnswers [(0, 0#8)] ++ CallbackAnswer.value 0 0#8 :: []) ∧
    (let s := answering (slave .quick Flags.clear false) [.value 0 0#8];
      slaveActive s ∧ s.slaveState = .quick ∧ callbackAnswer s = .value 0 0#8) ∧
    slaveActive (slave .start Flags.clear false) ∧ (slave .start Flags.clear false).slaveState = .start := ⟨⟨by decide, by decide, ⟨rfl, by decide⟩, by decide, by decide⟩, by decide, by decide, by decide⟩

/-- Each clause; the last is V-S23 at the second callback. -/
theorem witness_SlaveRowsStopAtAFault :
    (let s := answering (slave .start Flags.clear false) [.violation];
      slaveActive s ∧ callbackAnswer s = .violation) ∧
    (let r := received (slave .write Flags.clear false) [1#8];
      let s := answering { r with hw := { r.hw with dmaCount := 2 } } [.value 0 0#8];
      slaveActive s ∧ s.slaveState = .write ∧ [1#8].length < s.hw.dmaCount ∧
      (∀ i, i < 1 → bufRead s.rxBuffer i = [1#8][i]?) ∧ bufRead s.rxBuffer 1 = none ∧
      s.oracle.answerQ = valueAnswers [(0, 0#8)] ++ []) ∧
    (let s := answering (received (slave .write Flags.clear false) [1#8, 2#8]) [.value 0 0#8, .violation];
      slaveActive s ∧ s.slaveState = .write ∧ [1#8].length < s.hw.dmaCount ∧
      (∀ i, i < 1 → bufRead s.rxBuffer i = [1#8][i]?) ∧ bufRead s.rxBuffer 1 = some 2#8 ∧
      s.oracle.answerQ = valueAnswers [(0, 0#8)] ++ CallbackAnswer.violation :: []) ∧
    (let s := answering (received (slave .write Flags.clear false) [1#8]) [.value 0 0#8, .violation];
      slaveActive s ∧ s.slaveState = .write ∧ receivedBytes s [1#8] ∧
      s.oracle.answerQ = valueAnswers [(0, 0#8)] ++ CallbackAnswer.violation :: []) ∧
    (let s := answering (slave .quick Flags.clear false) [.violation];
      slaveActive s ∧ s.slaveState = .quick ∧ callbackAnswer s = .violation) ∧
    (let s := answering (slave .start Flags.clear true) [.value 0 9#8, .violation];
      slaveActive s ∧ s.slaveState ≠ .write ∧ [9#8].length < 256 ∧
      s.oracle.answerQ =
        valueAnswers [] ++ valueAnswers ([9#8].map (fun b => (0, b))) ++ CallbackAnswer.violation :: []) := by
  refine ⟨by decide, by decide, by decide, ⟨by decide, by decide, ⟨rfl, by decide⟩, by decide⟩, by decide, by decide⟩

/-! ### The controller agent and the whole machine -/

theorem witness_ControllerActions :
    up.initialized = true ∧
      (.dr ≠ Flag.am ∧ .dr ≠ Flag.dmac ∧ (Flag.dr = .stall → up.hw.stallEn = true) ∧
        (Flag.dr = .hwto → up.hw.toEn = true)) ∧
      ({ up.hw with start := true, stop := true } : Hw).start = true ∧
      (let s := { slave .read Flags.clear false with
          txBuffer := [(0, 5#8)],
          hw := { up.hw with dmaDir := .tx, dmaLen := 2, dmaCount := 0, dmaActive := true } };
        s.hw.dmaDir = .tx ∧ s.hw.dmaActive = true ∧ s.hw.dmaCount < s.hw.dmaLen ∧
        bufRead s.txBuffer s.hw.dmaCount = some 5#8 ∧ bufRead s.txBuffer 1 = none) ∧
      (let s := received (slave .write Flags.clear false) [1#8];
        s.hw.dmaDir = .rx ∧ s.hw.dmaActive = true ∧ s.hw.dmaCount < s.hw.dmaLen ∧ s.hw.dmaLen ≤ 256 ∧
        s.hw.matchEn = true) := by decide

theorem witness_BaudFieldsAreInRange :
    (200000 ≠ 100000 ∧ 200000 ≠ 400000 ∧ 200000 ≠ 1000000) ∧ ((400000 = 100000) ∨ (400000 = 400000)) ∧
      1000000 = 1000000 := by decide

theorem witness_StepTakesNothingBack :
    ∃ t, step (scheduled (.word 0x10000000#32 issuer) up) = .next t ∧ up.initialized = true := ⟨_, rfl, rfl⟩

theorem witness_OnlyCallersEnterAndLeaveIdle :
    (∃ t, step (scheduled (.advance 0) (inside .transfer 4 .none up)) = .next t ∧
        (scheduled (.advance 0) (inside .transfer 4 .none up)).masterState = .idle ∧ t.masterState ≠ .idle) ∧
      (∃ t, step (scheduled (.advance 0)
          (inside .slaveRegister 2 (.register (some { addr7 := 0x42#7, addr10 := false, cb := 0 })) up)) = .next t ∧
        t.slaveState ≠ .idle) ∧
      (∃ t, step (scheduled (.advance 0) (inside .slaveUnregister 2 .none (slave .start Flags.clear false))) = .next t ∧
        t.slaveState = .idle) := ⟨⟨_, rfl, by decide, by decide⟩, ⟨_, rfl, by decide⟩, ⟨_, rfl, by decide⟩⟩

/-- A run in which caller 0 returns from a transfer at its first step and is scheduled, with no step to take, ever
after. -/
def finishing (n : Nat) : State :=
  if n = 0 then inside .transfer 7 (.transfer 0x50#7 []) up
  else
    setCaller 0 (returned .ok)
      { up with lock := .free, resultLog := [{ caller := 0, op := .transfer, kind := .ok }] }

theorem witness_EveryCallerOperationReturns :
    (finishing 0).Inv ∧ isRun (fun _ => .advance 0) finishing ∧ fairCaller 0 (fun _ => .advance 0) finishing ∧
      (∀ m w b, 0 ≤ m → (fun _ => Input.advance 0 : Nat → Input) m = .word w b → b.caller = 0 →
        (getCaller (finishing m) 0).op = none) ∧
      (getCaller (finishing 0) 0).op ≠ none := by
  refine ⟨?_, ?_, ?_, ?_, by decide⟩
  · constructor
    · exact ⟨⟨List.Pairwise.nil, by simp [finishing, inside, up, power, State.reset]⟩,
        by simp [finishing, inside, up, power, State.reset],
        ⟨List.Pairwise.nil, by simp [finishing, inside, up, power, State.reset]⟩,
        by simp [finishing, inside, up, power, State.reset],
        ⟨List.Pairwise.nil, by simp [finishing, inside, up, power, State.reset]⟩⟩
    · exact ⟨List.pairwise_singleton _ _, by simp [finishing, inside, Caller.idle]⟩
    · decide
    · decide
    · decide
    · intro a h
      by_cases ha : a = 0
      · subst ha; rfl
      · exact absurd h (by
          rw [getCaller, show Assoc.get (finishing 0).callers a = none from if_neg (Ne.symm ha)]; decide)
    · intro a f h
      by_cases ha : a = 0
      · subst ha; exact absurd h (by simp [getCaller, finishing, inside, Assoc.get])
      · rw [getCaller, show Assoc.get (finishing 0).callers a = none from if_neg (Ne.symm ha)] at h
        cases h
    · intro h; exact absurd rfl h
    · decide
    · intro h; exact absurd h (by decide)
    · intro h; exact absurd h (by decide)
    · intro _ a f h
      by_cases ha : a = 0
      · subst ha
        simp [finishing, inside, getCaller, Assoc.get, callFrame] at h
        subst h
        simp [atSubStep]
      · rw [getCaller, show Assoc.get (finishing 0).callers a = none from if_neg (Ne.symm ha)] at h
        simp [callFrame, Caller.idle] at h
  · intro n
    cases n with
    | zero => rfl
    | succ n => rfl
  · intro n h
    exact absurd (h (n + 1) (by omega)) (by simp only [finishing, Nat.add_one_ne_zero, if_false]; decide)
  · intro m w b _ h; cases h

/-! ### The premises on runs (Machine/Premises.lean) -/

/-- R332's table and P5: a start that is owed when HW_RESET comes may still be answered, late. -/
theorem test_react_late_data_ready :
    (react [] { Watch.quiet with master := MasterOwed.disarmed .start, late := true } up (.raise .dr)).isSome = true := by decide

/-- R236: no DMAC in `Read` before the STALL has armed the receive, also not for a full slave window. -/
theorem test_react_no_dma_completion_before_the_stall :
    react [] { Watch.quiet with master := .address false true, slave := .receive }
      { master .read 0 4 Flags.clear with
        hw := { up.hw with dmaDir := .rx, dmaLen := 256, dmaCount := 256, dmaActive := true } }
      .dmaComplete = none := by decide

/-- R332: the stop of an addressed slave comes in slave `Start` too, after the 257th byte; without an address, never. -/
theorem test_react_stop_after_the_overflow :
    (react [] { Watch.quiet with addressed := true } (slave .start Flags.clear false) (.raise .sstop)).isSome = true ∧
      react [] Watch.quiet (slave .start Flags.clear false) (.raise .sstop) = none := by decide

/-- R332's row HW_DMA_RX 256 of the slave: no stop and no new address before a full window has had its DMAC, or the 257th
byte its data-ready. -/
theorem test_react_slave_reactions_first :
    let full := { slave .write Flags.clear false with
      hw := { up.hw with dmaDir := .rx, dmaLen := 256, dmaCount := 256, dmaActive := true } };
    react [] { Watch.quiet with slave := .receive, addressed := true } full (.raise .sstop) = none ∧
      react [] { Watch.quiet with slave := .receive, addressed := true } full (.addressMatch false) = none ∧
      (react [] { Watch.quiet with slave := .receive, addressed := true } full .dmaComplete).isSome = true ∧
      react [] { Watch.quiet with slave := .overflow, addressed := true } full (.raise .sstop) = none ∧
      (react [] { Watch.quiet with slave := .overflow, addressed := true } full (.raise .dr)).isSome = true := by decide

/-- After HW_RESET the 257th byte's data-ready may still come, and no reaction is due (notes/assumptions/12.md). -/
theorem test_react_overflow_late :
    let w := commandOwes false up { Watch.quiet with slave := .overflow }
      { word := 0x18000000#32, thresholds := none, result := none };
    w.slaveDue up = false ∧ (react [] w up (.raise .dr)).isSome = true := by decide

/-- R332: between two invocations at most one of the six flags is raised; BER and HWTO are for a claim that
names them. -/
theorem test_react_one_flag_at_a_time :
    react [] { Watch.quiet with raised := true, master := .start } up (.raise .dr) = none ∧
      react [] Watch.quiet up (.raise .ber) = none ∧ react [] Watch.quiet up (.raise .hwto) = none ∧
      (react [.ber] Watch.quiet up (.raise .ber)).isSome = true := by decide

/-- R332 along a run: HW_START asked in master Start, the start finished, the data-ready raised; before it, it is due. -/
theorem test_well_behaved_start :
    wellBehavedEnv [] 3 { inside .transfer 4 .none up with
        schedule := [.advance 0, .env .finishStart, .env (.raise .dr)] } = true ∧
      wellBehavedEnv [] 2 { inside .transfer 4 .none up with schedule := [.advance 0, .env .finishStart] } = false ∧
      wellBehavedPrefix [] 2 { inside .transfer 4 .none up with schedule := [.advance 0, .env .finishStart] } = true := by
  decide

/-- And a data-ready that answers nothing is not well-behaved. -/
theorem test_unasked_data_ready :
    wellBehavedPrefix [] 1 { up with schedule := [.env (.raise .dr)] } = false := by decide

/-- R332, the row of HW_STOP: the stop is finished, and the bus freed; it is not made busy before. -/
theorem test_well_behaved_stop :
    wellBehavedEnv [] 3 { up with
        hw := { up.hw with busBusy := true },
        schedule := [.word 0x11000000#32 issuer, .env .finishStop, .env (.setBusy false)] } = true ∧
      wellBehavedEnv [] 2 { up with
        hw := { up.hw with busBusy := true }, schedule := [.word 0x11000000#32 issuer, .env .finishStop] } = false ∧
      wellBehavedEnv [] 1 { up with schedule := [.word 0x11000000#32 issuer] } = false ∧
      wellBehavedPrefix [] 2 { up with schedule := [.word 0x11000000#32 issuer, .env (.setBusy true)] } = false := by
  decide

/-- V-C17: a caller that holds the lock and acquires again is stuck until its expiry, then `Busy`, and goes on. -/
theorem test_second_call_of_the_holder :
    (let s := inside .transfer 4 .none up;
      look (exec (.transfer 0x50#7 0#16) s) (fun t =>
        ((getCaller t 0).pc, advanceCaller 0 t == t, (expireCaller 0 t).resultLog,
          getCaller (expireCaller 0 t) 0 == getCaller s 0)) =
        some (1, true, [{ caller := 0, op := .transfer, kind := .busy }], true)) := by decide

/-- R194: between the arm and the wake the caller has no step but the wake and the expiry. -/
theorem test_no_call_between_arm_and_wake :
    look (exec (.transfer 0x50#7 0#16) (inside .transfer 5 .none up)) (fun t => t == inside .transfer 5 .none up) =
      some true := by decide

/-- R360: before INIT a command on its own is no step. -/
theorem test_no_command_before_init :
    look (step (scheduled (.word 0x10000000#32 issuer) power)) (fun t => (t.hw.start, t.cmdLog)) =
      some (false, []) := by decide

/-- The messages of a TRANSFER are the list beside the word where it has the word's count. -/
theorem test_transfer_messages :
    transferMessages 1#16 [{ dir := .read, len := 1, buf := 7 }] = [{ dir := .read, len := 1, buf := 7 }] ∧
      (transferMessages 2#16 []).length = 2 := by simp [transferMessages]

end Sys2Proof.Tests
end

/-! PROOFS. The scope's statements: whose turn a step is, and what is no step (00_scope.md R9). -/

namespace Sys2Proof.Machine

/-! ### The step, where the next input is no instruction's -/

/-- With nothing scheduled the machine idles. -/
theorem step_idle {s : State} (hf : s.faults = []) (hs : s.schedule = []) : step s = .next s := by
  rw [step, fetch_idle hf hs]

/-- An input that is another agent's step, or no step, is taken off the schedule and that agent's state is the next. -/
theorem step_agent {s t : State} {x : Input} {rest : List Input} (hf : s.faults = []) (hs : s.schedule = x :: rest)
    (hx : fetchInput x (taken s rest) = .agent t) : step s = .next t := by
  rw [step, fetch_input hf hs, hx]

/-- Settles O10: each agent's input is fetched as that agent's step. -/
theorem stepTakesTheAgentsTurn : Obligations.StepTakesTheAgentsTurn := by
  intro s rest hf
  refine ⟨step_idle hf, fun a hs => ?_, fun a hs => ?_, fun e hs => ?_, fun a b hs => ?_⟩ <;>
    exact step_agent hf hs rfl

/-! ### Entry points called by a caller that may not call -/

/-- A caller inside an operation may not call when it does not hold the lock, is in a second call already, or waits
for its transfer's wake (42_master_caller.md R190, R194; notes/assumptions/18.md). -/
theorem callerBusy_of_inside {s : State} {a : Nat} (hop : (getCaller s a).op ≠ none)
    (h : s.lock ≠ .held a ∨ (getCaller s a).outer ≠ none ∨
      ((getCaller s a).op = some .transfer ∧ (getCaller s a).pc = 5)) : callerBusy s a = true := by
  rw [← Bool.not_eq_false, callerBusy_eq_false_iff]
  rintro (hidle | ⟨hlock, houter, hwait⟩)
  · exact hop hidle
  · exact h.elim (· hlock) (·.elim (· houter) hwait)

section busyCaller
variable {s : State} (h : callerBusy s s.issue.caller = true)
include h

theorem exec_init_busy : exec .init s = .next s := if_pos h

theorem exec_configure_busy (addr10 : Bool) (cls : BitVec 4) : exec (.configure addr10 cls) s = .next s := if_pos h

theorem exec_transfer_busy (addr7 : Addr7) (n : BitVec 16) : exec (.transfer addr7 n) s = .next s := if_pos h

theorem exec_slaveRegister_busy (addr10 : Bool) (addr7 : Addr7) (isNull : Bool) :
    exec (.slaveRegister addr10 addr7 isNull) s = .next s := if_pos h

theorem exec_slaveUnregister_busy : exec .slaveUnregister s = .next s := if_pos h

end busyCaller

/-! ### The interrupt, the handler rows and the controller, where they have no step -/

/-- An IRQ that is not enabled is no step (10_state.md R52). -/
theorem exec_irq_disabled {s : State} (h : s.initialized = false ∨ irqPending s = false) :
    exec .irq s = .next s := by
  have hdis : irqEnabled s = false := by rwa [irqEnabled, Bool.and_eq_false_iff]
  exact if_neg (Bool.eq_false_iff.1 hdis)

/-- An instruction that has a row is that row, run with some body. -/
theorem exec_eq_execRow {i : Instr} {r : Row} (h : rowOf? i = some r) : ∃ body, exec i = execRow r body := by
  cases i <;> cases h <;> exact ⟨_, rfl⟩

/-- A row that the dispatcher does not route to, or that does not fire, changes nothing (30_encoding.md R106,
45_dispatcher.md R311). -/
theorem execRow_disabled {r : Row} {s : State} (body : State → Flow Unit)
    (h : routedTo r.role s = false ∨ rowFires r (r.keyMatch.extractLsb' 0 9) s = false) :
    execRow r body s = .next s := by
  rcases execRow_cases r body s with ⟨hrouted, hfires, -⟩ | heq
  · simp [hrouted, hfires] at h
  · exact heq

/-- A controller action whose condition does not hold, or before INIT, is no step (60_exceptions.md R331). -/
theorem envStep_disabled {e : EnvAction} {s : State} (h : s.initialized = false ∨ envEnabled s.hw e = false) :
    envStep e s = s := by
  have hdis : (s.initialized && envEnabled s.hw e) = false := Bool.and_eq_false_iff.2 h
  exact if_neg (Bool.eq_false_iff.1 hdis)

/-- Settles O30: each kind of disabled input takes the branch of its meaning that keeps the state. -/
theorem disabledInputsChangeNothing : Obligations.DisabledInputsChangeNothing := by
  intro s
  refine ⟨fun hop h => ?_, exec_irq_disabled, fun i r hrow h => ?_, fun _ => envStep_disabled⟩
  · have hbusy := callerBusy_of_inside hop h
    exact ⟨exec_init_busy hbusy, exec_configure_busy hbusy, exec_transfer_busy hbusy, exec_slaveRegister_busy hbusy,
      exec_slaveUnregister_busy hbusy⟩
  · obtain ⟨body, hexec⟩ := exec_eq_execRow hrow
    rw [hexec, execRow_disabled body h]

end Sys2Proof.Machine

/-! PROOFS. The state's statements (10_state.md): what the model chose for odd operands, entry points out of place, what
each engine leaves alone, the invariant, and that no step takes anything back. -/

namespace Sys2Proof.Machine

/-! ### What a command writes (40_hw_commands.md) -/

/-- A DMA count within its length, a length of at most 256 (10_state.md R42). -/
abbrev Hw.dmaOk (h : Hw) : Prop := h.dmaCount ≤ h.dmaLen ∧ h.dmaLen ≤ 256

/-- What a command may do: write the register block, keeping the DMA's bounds, and append to the command log. -/
def CommandEffect (s t : State) : Prop :=
  ∃ hw log, t = { s with hw := hw, cmdLog := s.cmdLog ++ log } ∧ (s.hw.dmaOk → hw.dmaOk)

theorem CommandEffect.refl (s : State) : CommandEffect s s := ⟨s.hw, [], by rw [List.append_nil], id⟩

theorem CommandEffect.trans {s t u : State} (h : CommandEffect s t) (k : CommandEffect t u) : CommandEffect s u := by
  obtain ⟨hw, log, rfl, hd⟩ := h
  obtain ⟨hw', log', rfl, hd'⟩ := k
  exact ⟨hw', log ++ log', by simp, hd' ∘ hd⟩

/-- What INIT and CONFIGURE may write beside that: the source clock, the bit rate, and the oracle for an answer that is
used up (41_baud_lifecycle.md R175, R177). -/
def ClockEffect (s t : State) : Prop :=
  ∃ o rate speed, CommandEffect { s with oracle := o, sourceClock := rate, bitrate := speed } t

theorem CommandEffect.clock {s t : State} (h : CommandEffect s t) : ClockEffect s t := ⟨_, _, _, h⟩

theorem ClockEffect.refl (s : State) : ClockEffect s s := (CommandEffect.refl s).clock

theorem ClockEffect.trans {s t u : State} (h : ClockEffect s t) (k : ClockEffect t u) : ClockEffect s u := by
  obtain ⟨o, rate, speed, hw, log, rfl, hd⟩ := h
  obtain ⟨o', rate', speed', hw', log', rfl, hd'⟩ := k
  exact ⟨o', rate', speed', hw', log ++ log', by simp, hd' ∘ hd⟩

/-! What such an effect leaves alone. -/

section kept
variable {s t : State} (h : ClockEffect s t)
include h

theorem ClockEffect.callers : t.callers = s.callers := by obtain ⟨o, rate, speed, hw, log, rfl, -⟩ := h; rfl
theorem ClockEffect.lock : t.lock = s.lock := by obtain ⟨o, rate, speed, hw, log, rfl, -⟩ := h; rfl
theorem ClockEffect.faults : t.faults = s.faults := by obtain ⟨o, rate, speed, hw, log, rfl, -⟩ := h; rfl
theorem ClockEffect.initialized : t.initialized = s.initialized := by
  obtain ⟨o, rate, speed, hw, log, rfl, -⟩ := h; rfl

end kept

section effects
variable (s : State)

/-- A command is a change of the register block and a log entry. -/
theorem effect_logCmd_setHw (i : Instr) (r : Option CmdResult) {f : Hw → Hw} (h : s.hw.dmaOk → (f s.hw).dmaOk) :
    CommandEffect s (logCmd i r (setHw f s)) := ⟨f s.hw, _, rfl, h⟩

/-- A command that reads is a log entry. -/
theorem effect_logCmd (i : Instr) (r : Option CmdResult) : CommandEffect s (logCmd i r s) := ⟨s.hw, _, rfl, id⟩

theorem effect_hwStart : CommandEffect s (hwStart s) := effect_logCmd_setHw s _ _ id
theorem effect_hwStop : CommandEffect s (hwStop s) := effect_logCmd_setHw s _ _ id
theorem effect_hwStallEn : CommandEffect s (hwStallEn s) := effect_logCmd_setHw s _ _ id
theorem effect_hwStallDis : CommandEffect s (hwStallDis s) := effect_logCmd_setHw s _ _ id
theorem effect_hwSendAddr (b : Byte) : CommandEffect s (hwSendAddr b s) := effect_logCmd_setHw s _ _ id
theorem effect_hwDmaTx (n : BitVec 16) : CommandEffect s (hwDmaTx n s) :=
  effect_logCmd_setHw s _ _ fun _ => ⟨Nat.zero_le _, dmaLength_le n⟩
theorem effect_hwDmaRx (n : BitVec 16) : CommandEffect s (hwDmaRx n s) :=
  effect_logCmd_setHw s _ _ fun _ => ⟨Nat.zero_le _, dmaLength_le n⟩
theorem effect_hwDmaNackLast : CommandEffect s (hwDmaNackLast s) := effect_logCmd_setHw s _ _ id
theorem effect_hwReset : CommandEffect s (hwReset s) :=
  effect_logCmd_setHw s _ _ fun _ => ⟨Nat.le_refl 0, Nat.zero_le 256⟩
theorem effect_hwClearStatus : CommandEffect s (hwClearStatus s) := effect_logCmd_setHw s _ _ id
theorem effect_hwClearDma : CommandEffect s (hwClearDma s) := effect_logCmd_setHw s _ _ id
theorem effect_hwWaitBusFree : CommandEffect s (hwWaitBusFree s) := effect_logCmd s _ _
theorem effect_hwReadStatus : CommandEffect s (hwReadStatus s) := effect_logCmd s _ _
theorem effect_hwAckStatus (m : Byte) : CommandEffect s (hwAckStatus m s) := effect_logCmd_setHw s _ _ id
theorem effect_hwSetTimeout (t : Thresholds) : CommandEffect s (hwSetTimeout t s) := ⟨_, _, rfl, id⟩
theorem effect_hwSetBaud (fmPlus : Bool) (hold : BitVec 5) (div : BitVec 9) :
    CommandEffect s (hwSetBaud fmPlus hold div s) := effect_logCmd_setHw s _ _ id
theorem effect_hwSetScl (hi lo : BitVec 12) : CommandEffect s (hwSetScl hi lo s) := effect_logCmd_setHw s _ _ id
theorem effect_hwSetSlaveAddr (en : Bool) (a : Addr7) : CommandEffect s (hwSetSlaveAddr en a s) :=
  effect_logCmd_setHw s _ _ id
theorem effect_hwMatchIrq (en : Bool) : CommandEffect s (hwMatchIrq en s) := effect_logCmd_setHw s _ _ id
theorem effect_hwAckMode (nack : Bool) : CommandEffect s (hwAckMode nack s) := effect_logCmd_setHw s _ _ id
theorem effect_hwIrqEnable (en : Bool) : CommandEffect s (hwIrqEnable en s) := effect_logCmd_setHw s _ _ id
theorem effect_hwWriteData (b : Byte) : CommandEffect s (hwWriteData b s) := effect_logCmd_setHw s _ _ id
theorem effect_hwReadData : CommandEffect s (hwReadData s) := effect_logCmd s _ _
theorem effect_hwReadDmaCount : CommandEffect s (hwReadDmaCount s) := effect_logCmd s _ _
theorem effect_hwReadBusy : CommandEffect s (hwReadBusy s) := effect_logCmd s _ _

theorem effect_abort : CommandEffect s (abort s) :=
  (((effect_hwStop s).trans (effect_hwClearStatus _)).trans (effect_hwWaitBusFree _)).trans (effect_hwClearDma _)

theorem effect_programBaud (b : BaudFields) : CommandEffect s (programBaud b s) :=
  (effect_hwSetBaud s _ _ _).trans (effect_hwSetScl _ _ _)

/-- An answer used up changes the oracle alone. -/
theorem usedClockAnswer_eq : usedClockAnswer s = { s with oracle := (usedClockAnswer s).oracle } := by
  unfold usedClockAnswer; split <;> rfl

theorem usedRateAnswer_eq : usedRateAnswer s = { s with oracle := (usedRateAnswer s).oracle } := by
  unfold usedRateAnswer; split <;> rfl

theorem usedCallbackAnswer_eq : usedCallbackAnswer s = { s with oracle := (usedCallbackAnswer s).oracle } := by
  unfold usedCallbackAnswer; split <;> rfl

/-- The two clock commands use up an answer too (R154, R155). -/
theorem effect_clkEnable : ClockEffect s (clkEnable s) := by
  unfold clkEnable
  rw [usedClockAnswer_eq]
  split
  · exact ⟨_, _, _, _, _, rfl, id⟩
  · exact ⟨_, _, _, effect_logCmd _ _ _⟩

theorem effect_clkGetRate : ClockEffect s (clkGetRate s) := by
  unfold clkGetRate
  rw [usedRateAnswer_eq]
  exact ⟨_, _, _, effect_logCmd _ _ _⟩

theorem effect_sourceClock (rate : Nat) : ClockEffect s { s with sourceClock := rate } := ⟨_, _, _, .refl _⟩
theorem effect_bitrate (speed : Nat) : ClockEffect s { s with bitrate := speed } := ⟨_, _, _, .refl _⟩

end effects

/-! ### What an instruction can do, said once for each kind -/

/-- The instruction is a caller's call or the interrupt: format A (30_encoding.md R111). -/
def isEntry : Instr → Bool
  | .init | .configure _ _ | .transfer _ _ | .slaveRegister _ _ _ | .slaveUnregister | .irq => true
  | _ => false

/-- A command on its own answers with its effect (40_hw_commands.md R130 to R156). -/
theorem exec_command {i : Instr} (hkey : i.isKeyRow = false) (hentry : isEntry i = false) (s : State) :
    ∃ t, exec i s = .next t ∧ ClockEffect s t := by
  have plain {t : State} (h : CommandEffect s t) (he : exec i s = .next t) :
      ∃ t, exec i s = .next t ∧ ClockEffect s t := ⟨t, he, h.clock⟩
  cases i <;> cases hkey <;> cases hentry
  case hwSetTimeout =>
    cases h : s.cfg.hwTimeout with
    | some t => exact plain (effect_hwSetTimeout s t) (by simp only [exec, execHwSetTimeout, h])
    | none => exact plain (.refl s) (by simp only [exec, execHwSetTimeout, h])
  case clkEnable => exact ⟨_, rfl, effect_clkEnable s⟩
  case clkGetRate => exact ⟨_, rfl, effect_clkGetRate s⟩
  exacts [plain (effect_hwStart s) rfl, plain (effect_hwStop s) rfl, plain (effect_hwStallEn s) rfl,
    plain (effect_hwStallDis s) rfl, plain (effect_hwSendAddr s _) rfl, plain (effect_hwDmaTx s _) rfl,
    plain (effect_hwDmaRx s _) rfl, plain (effect_hwDmaNackLast s) rfl, plain (effect_hwReset s) rfl,
    plain (effect_hwClearStatus s) rfl, plain (effect_hwClearDma s) rfl, plain (effect_hwWaitBusFree s) rfl,
    plain (effect_hwSetBaud s _ _ _) rfl, plain (effect_hwSetScl s _ _) rfl, plain (effect_hwSetSlaveAddr s _ _) rfl,
    plain (effect_hwMatchIrq s _) rfl, plain (effect_hwAckMode s _) rfl, plain (effect_hwWriteData s _) rfl,
    plain (effect_hwReadData s) rfl, plain (effect_hwReadDmaCount s) rfl, plain (effect_hwReadStatus s) rfl,
    plain (effect_hwAckStatus s _) rfl, plain (effect_hwIrqEnable s _) rfl, plain (effect_hwReadBusy s) rfl]

theorem masterGroups_role : ∀ p ∈ masterGroups.flatten, p.1.role = .master := by decide

theorem slaveGroups_role : ∀ p ∈ slaveGroups.flatten, p.1.role = .slave := by decide

/-- A handler row as an instruction is its row of the master's or of the slave's groups (30_encoding.md R107). -/
theorem exec_keyRow {i : Instr} (h : i.isKeyRow = true) :
    (∃ p ∈ masterGroups.flatten, exec i = execRow p.1 p.2) ∨ ∃ p ∈ slaveGroups.flatten, exec i = execRow p.1 p.2 := by
  have master (k : Nat) (hk : k < 12)
      (he : exec i = execRow (masterGroups.flatten[k]'hk).1 (masterGroups.flatten[k]'hk).2) :
      ∃ p ∈ masterGroups.flatten, exec i = execRow p.1 p.2 := ⟨_, List.getElem_mem _, he⟩
  have slave (k : Nat) (hk : k < 8)
      (he : exec i = execRow (slaveGroups.flatten[k]'hk).1 (slaveGroups.flatten[k]'hk).2) :
      ∃ p ∈ slaveGroups.flatten, exec i = execRow p.1 p.2 := ⟨_, List.getElem_mem _, he⟩
  cases i <;> cases h
  exacts [.inl (master 0 (by decide) rfl), .inl (master 1 (by decide) rfl), .inl (master 2 (by decide) rfl),
    .inl (master 3 (by decide) rfl), .inl (master 4 (by decide) rfl), .inl (master 5 (by decide) rfl),
    .inl (master 6 (by decide) rfl), .inl (master 7 (by decide) rfl), .inl (master 8 (by decide) rfl),
    .inl (master 9 (by decide) rfl), .inl (master 10 (by decide) rfl), .inl (master 11 (by decide) rfl),
    .inr (slave 0 (by decide) rfl), .inr (slave 1 (by decide) rfl), .inr (slave 2 (by decide) rfl),
    .inr (slave 3 (by decide) rfl), .inr (slave 4 (by decide) rfl), .inr (slave 5 (by decide) rfl),
    .inr (slave 6 (by decide) rfl), .inr (slave 7 (by decide) rfl)]

/-- A refused word has no instruction, and a row's word has the row's. -/
theorem whenZero_isKeyRow {zero : Bool} {i j : Instr} (hj : j.isKeyRow = false) (h : whenZero zero j = .ok i) :
    i.isKeyRow = false := by
  unfold whenZero at h
  split at h <;> cases h
  exact hj

/-- No operation word spells a handler row (30_encoding.md R115). -/
theorem decodeWord_isKeyRow {w : OpWord} {i : Instr} (h : decodeWord w = .ok i) : i.isKeyRow = false := by
  unfold decodeWord at h
  dsimp only at h
  split at h
  case h_21 => cases h; rfl
  case h_34 => cases h
  all_goals exact whenZero_isKeyRow rfl h

/-- What a caller's call does: nothing where the caller may not call; else the caller enters the entry point and the
step ends there at a fault, with the call's return, at the lock, or with a successful INIT (41_baud_lifecycle.md R175 to
R177, 42_master_caller.md R192, 44_slave_engine.md R262, R263). -/
inductive CallRun (s : State) (a : Nat) : State → Prop where
  | busy : CallRun s a s
  | faults (op : EntryPoint) (args : CallArgs) (r : Fault) (hfree : callerBusy s a = false) :
      CallRun s a (raiseFault r (enterCall a op args s))
  | returns (op : EntryPoint) (args : CallArgs) (kind : ErrorKind) (u : State) (hfree : callerBusy s a = false)
      (heffect : ClockEffect (enterCall a op args s) u) : CallRun s a (returnCall a op kind u)
  | locks (op : EntryPoint) (args : CallArgs) (hfree : callerBusy s a = false) (hinit : s.initialized = true)
      (hstep : atSubStep { op := op, pc := 1, args := args }) : CallRun s a (acquire a (enterCall a op args s))
  | bringsUp (u v : State) (hfree : callerBusy s a = false) (hinit : s.initialized = false)
      (hclock : ClockEffect (enterCall a .init .none s) u) (henable : CommandEffect (initState u) v) :
      CallRun s a (startLogs (returnCall a .init .ok { v with initialized := true }))

section calls
variable {s t : State} {a : Nat}

/-- A call that returns having written nothing. -/
theorem CallRun.returned (op : EntryPoint) (args : CallArgs) (kind : ErrorKind) (hfree : callerBusy s a = false) :
    CallRun s a (returnCall a op kind (enterCall a op args s)) := .returns op args kind _ hfree (.refl _)

/-- INIT returns a failure having programmed nothing, or brings the controller up (R175, R176). -/
theorem bringUp_cases (a : Nat) (s : State) :
    (∃ kind u, ClockEffect s u ∧ bringUp a s = returnCall a .init kind u) ∨
    (∃ u v, ClockEffect s u ∧ CommandEffect (initState u) v ∧
      bringUp a s = startLogs (returnCall a .init .ok { v with initialized := true })) := by
  have hrate (s : State) : ClockEffect s { clkGetRate s with sourceClock := rateAnswer s } :=
    (effect_clkGetRate s).trans (effect_sourceClock _ _)
  unfold bringUp
  split
  · unfold initWithClock
    dsimp only
    split
    · exact .inl ⟨_, _, (effect_clkEnable s).trans (hrate _), rfl⟩
    · rename_i b _
      refine .inr ⟨_, _, ?_, effect_hwIrqEnable _ true, rfl⟩
      exact (((effect_clkEnable s).trans (hrate _)).trans (effect_programBaud _ b).clock).trans (effect_bitrate _ _)
  · exact .inl ⟨_, _, effect_clkEnable s, rfl⟩

theorem execInit_run (h : execInit s = .next t) : CallRun s s.issue.caller t := by
  unfold execInit at h
  dsimp only at h
  split at h
  · cases h; exact .busy
  · rename_i hfree
    rw [Bool.not_eq_true] at hfree
    split at h
    · cases h; exact .faults _ _ _ hfree
    · rename_i hinit
      rw [enterCall_initialized, Bool.not_eq_true] at hinit
      cases h
      rcases bringUp_cases s.issue.caller (enterCall s.issue.caller .init .none s) with
        ⟨kind, u, hclock, heq⟩ | ⟨u, v, hclock, henable, heq⟩ <;> rw [heq]
      · exact .returns _ _ _ _ hfree hclock
      · exact .bringsUp _ _ hfree hinit hclock henable

/-- The two checks before every entry point but INIT: the caller may call, and the controller is
initialized. -/
theorem CallRun.of_checks {op : EntryPoint} {args : CallArgs} {body : Host.Outcome State Fault Refusal}
    (h : (if callerBusy s a then .next s
      else if (enterCall a op args s).initialized = false then
        .next (raiseFault .notInitialized (enterCall a op args s))
      else body) = .next t)
    (hbody : callerBusy s a = false → s.initialized = true → body = .next t → CallRun s a t) : CallRun s a t := by
  split at h
  · cases h; exact .busy
  · rename_i hfree
    rw [Bool.not_eq_true] at hfree
    split at h
    · cases h; exact .faults _ _ _ hfree
    · rename_i hinit
      rw [enterCall_initialized, Bool.not_eq_false] at hinit
      exact hbody hfree hinit h

theorem execConfigure_run {addr10 : Bool} {cls : BitVec 4} (h : execConfigure addr10 cls s = .next t) :
    CallRun s s.issue.caller t := by
  unfold execConfigure at h
  refine .of_checks h fun hfree hinit hbody => ?_
  split at hbody
  · cases hbody; exact .returned _ _ _ hfree
  · split at hbody
    · cases hbody; exact .faults _ _ _ hfree
    · split at hbody <;> cases hbody
      · exact .returned _ _ _ hfree
      · rename_i b _
        exact .returns _ _ _ _ hfree ((effect_programBaud _ b).clock.trans (effect_bitrate _ _))

theorem execTransfer_run {addr7 : Addr7} {n : BitVec 16} (h : execTransfer addr7 n s = .next t) :
    CallRun s s.issue.caller t := by
  unfold execTransfer at h
  refine .of_checks h fun hfree hinit hbody => ?_
  cases hbody
  exact .locks _ _ hfree hinit (.inl rfl)

theorem execSlaveRegister_run {addr10 isNull : Bool} {addr7 : Addr7}
    (h : execSlaveRegister addr10 addr7 isNull s = .next t) : CallRun s s.issue.caller t := by
  unfold execSlaveRegister at h
  refine .of_checks h fun hfree hinit hbody => ?_
  split at hbody <;> cases hbody
  · exact .returned _ _ _ hfree
  · rename_i hcfg
    refine .locks _ _ hfree hinit ?_
    cases hc : wordConfig addr10 addr7 isNull s.issue.callbacks with
    | none => simp [hc, configRefused] at hcfg
    | some c => exact .inl rfl

theorem execSlaveUnregister_run (h : execSlaveUnregister s = .next t) : CallRun s s.issue.caller t := by
  unfold execSlaveUnregister at h
  refine .of_checks h fun hfree hinit hbody => ?_
  split at hbody
  · cases hbody; exact .returned _ _ _ hfree
  · split at hbody <;> cases hbody
    · exact .returned _ _ _ hfree
    · exact .locks _ _ hfree hinit (.inl rfl)

end calls

/-- What an instruction does when it answers a next state: a call's run, a command's effect, a row that fires, an
interrupt invocation, or nothing. -/
inductive ExecRun (i : Instr) (s : State) : State → Prop where
  | still : ExecRun i s s
  | call {t : State} (h : CallRun s s.issue.caller t) : ExecRun i s t
  | command {t : State} (h : ClockEffect s t) : ExecRun i s t
  | interrupt (henabled : irqEnabled s = true) : ExecRun i s (dispatchIrq s)
  | masterRow (p : Row × (State → Flow Unit)) (snap : Snapshot) (hkey : i.isKeyRow = true)
      (hp : p ∈ masterGroups.flatten) (hfires : rowFires p.1 snap s = true) : ExecRun i s (p.2 s).state
  | slaveRow (p : Row × (State → Flow Unit)) (snap : Snapshot) (hkey : i.isKeyRow = true)
      (hp : p ∈ slaveGroups.flatten) (hrouted : routedTo .slave s = true) (hfires : rowFires p.1 snap s = true) :
      ExecRun i s (p.2 s).state

theorem exec_keyRow_run {i : Instr} {s t : State} (hkey : i.isKeyRow = true) (h : exec i s = .next t) :
    ExecRun i s t := by
  rcases exec_keyRow hkey with ⟨p, hp, hexec⟩ | ⟨p, hp, hexec⟩ <;>
    rcases execRow_cases p.1 p.2 s with ⟨hrouted, hfires, heq⟩ | heq <;>
    rw [hexec, heq] at h <;> cases h
  · exact .masterRow p _ hkey hp hfires
  · exact .still
  · exact .slaveRow p _ hkey hp (slaveGroups_role p hp ▸ hrouted) hfires
  · exact .still

theorem exec_run {i : Instr} {s t : State} (h : exec i s = .next t) : ExecRun i s t := by
  cases hkey : i.isKeyRow with
  | true => exact exec_keyRow_run hkey h
  | false =>
    cases hentry : isEntry i with
    | false =>
      obtain ⟨u, hu, heffect⟩ := exec_command hkey hentry s
      rw [hu] at h
      cases h
      exact .command heffect
    | true =>
      cases i <;> cases hentry
      case init.refl => exact .call (execInit_run h)
      case configure.refl => exact .call (execConfigure_run h)
      case transfer.refl => exact .call (execTransfer_run h)
      case slaveRegister.refl => exact .call (execSlaveRegister_run h)
      case slaveUnregister.refl => exact .call (execSlaveUnregister_run h)
      case irq.refl =>
        change execIrq s = .next t at h
        unfold execIrq at h
        split at h <;> cases h
        · exact .interrupt ‹_›
        · exact .still


/-! ### The invariant, taken apart by caller -/

/-- The clauses of the invariant in which no caller's record stands. -/
def State.DataInv (s : State) : Prop :=
  s.memoryWf ∧ (s.txCount ≤ 256 ∧ s.rxCount ≤ 256) ∧ s.hw.dmaOk ∧ (s.slaveConfig = none ↔ s.slaveState = .idle) ∧
  ((s.masterState = .write → 0 < s.txCount) ∧ (s.masterState = .read → 0 < s.rxCount)) ∧
  (s.initialized = false → s.fresh)

/-- The clauses about one record: `c` may be caller `a`'s. -/
structure CallerInv (s : State) (a : Nat) (c : Caller) : Prop where
  lock : 2 ≤ c.pc → s.lock = .held a
  second : ∀ f, c.outer = some f → s.lock = .held a ∧ c.op ≠ none ∧ c.pc = 1 ∧ awaitsSignal f = false
  boot : s.initialized = false → c.pc ≤ 1 ∧ (s.faults = [] → c.op = none)
  subSteps : s.faults = [] → ∀ f, callFrame c = some f ∨ c.outer = some f → atSubStep f

/-- The invariant, but for the record of caller `o`, if one is named: that record may be any, and the master does not
run for that caller's transfer. It lets a step of caller `o` be followed through its parts. -/
structure State.InvExcept (o : Option Nat) (s : State) : Prop where
  data : s.DataInv
  list : s.callersWf
  each : ∀ b, o ≠ some b → CallerInv s b (getCaller s b)
  master : s.masterState ≠ .idle →
    s.completion = false ∧
      ∃ b, o ≠ some b ∧ s.lock = .held b ∧ (getCaller s b).op = some .transfer ∧ (getCaller s b).pc = 5

theorem State.Inv.exceptNone {s : State} (h : s.Inv) : s.InvExcept none where
  data := ⟨h.memory, h.counts, h.dma, h.slave, h.segments, h.fresh⟩
  list := h.callers
  each b _ :=
    { lock := h.lock b, second := h.second b, boot := fun hi => ⟨(h.boot hi).1 b, fun hf => (h.boot hi).2 hf b⟩,
      subSteps := fun hf => h.subSteps hf b }
  master hm := by
    obtain ⟨hc, b, hb⟩ := h.master hm
    exact ⟨hc, b, nofun, hb⟩

theorem State.InvExcept.inv {s : State} (h : s.InvExcept none) : s.Inv := by
  obtain ⟨hmemory, hcounts, hdma, hslave, hsegments, hfresh⟩ := h.data
  have each (b : Nat) : CallerInv s b (getCaller s b) := h.each b nofun
  exact
    { memory := hmemory, callers := h.list, counts := hcounts, dma := hdma, slave := hslave, segments := hsegments,
      fresh := hfresh, lock := fun b => (each b).lock, second := fun b => (each b).second,
      boot := fun hi => ⟨fun b => ((each b).boot hi).1, fun hf b => ((each b).boot hi).2 hf⟩,
      subSteps := fun hf b => (each b).subSteps hf,
      master := fun hm => (h.master hm).imp id fun ⟨b, _, hb⟩ => ⟨b, hb⟩ }

section records
variable {s t : State} {a : Nat} {o : Option Nat}

theorem State.Inv.caller (h : s.Inv) (a : Nat) : CallerInv s a (getCaller s a) := h.exceptNone.each a nofun

/-- Leave a caller out that the master does not run for. -/
theorem State.Inv.except (h : s.Inv)
    (hm : s.masterState = .idle ∨ ¬((getCaller s a).op = some .transfer ∧ (getCaller s a).pc = 5)) :
    s.InvExcept (some a) where
  data := h.exceptNone.data
  list := h.callers
  each b _ := h.caller b
  master hne := by
    obtain ⟨hc, b, hlock, hop, hpc⟩ := h.master hne
    refine ⟨hc, b, ?_, hlock, hop, hpc⟩
    rintro ⟨⟩
    exact hm.elim hne (· ⟨hop, hpc⟩)

/-- Take the caller in again. -/
theorem State.InvExcept.restore (h : s.InvExcept (some a)) (hc : CallerInv s a (getCaller s a)) : s.Inv := by
  refine State.InvExcept.inv ⟨h.data, h.list, fun b _ => ?_, fun hm => ?_⟩
  · by_cases hb : a = b
    · exact hb ▸ hc
    · exact h.each b (by simpa using hb)
  · obtain ⟨hcompl, b, -, hb⟩ := h.master hm
    exact ⟨hcompl, b, nofun, hb⟩

/-- A record stays legal where the lock stays with its caller, no fault goes and the controller stays initialized. -/
theorem CallerInv.mono {c : Caller} (h : CallerInv s a c) (hlock : s.lock = .held a → t.lock = .held a)
    (hfaults : t.faults = [] → s.faults = []) (hinit : t.initialized = false → s.initialized = false) :
    CallerInv t a c where
  lock := hlock ∘ h.lock
  second f hf := (h.second f hf).imp hlock id
  boot hi := (h.boot (hinit hi)).imp id (· ∘ hfaults)
  subSteps := h.subSteps ∘ hfaults

/-- The rule for every step: the other callers' records and the lock they hold stay, no fault goes, the controller
stays initialized, and the master leaves Idle nowhere. -/
theorem State.InvExcept.mono (h : s.InvExcept o) (hdata : t.DataInv) (hlist : t.callersWf)
    (hothers : ∀ b, o ≠ some b → getCaller t b = getCaller s b)
    (hlock : ∀ b, o ≠ some b → s.lock = .held b → t.lock = .held b) (hfaults : t.faults = [] → s.faults = [])
    (hinit : t.initialized = false → s.initialized = false)
    (hmaster : t.masterState ≠ .idle → s.masterState ≠ .idle ∧ t.completion = s.completion) : t.InvExcept o where
  data := hdata
  list := hlist
  each b hb := hothers b hb ▸ (h.each b hb).mono (hlock b hb) hfaults hinit
  master hm := by
    obtain ⟨hs, hcompl⟩ := hmaster hm
    obtain ⟨hc, b, hb, hheld, hop, hpc⟩ := h.master hs
    exact ⟨hcompl.trans hc, b, hb, hlock b hb hheld, by rw [hothers b hb, hop], by rw [hothers b hb, hpc]⟩

/-- The same where no caller's record changes and the lock stays. -/
theorem State.InvExcept.frame (h : s.InvExcept o) (hdata : t.DataInv) (hcallers : t.callers = s.callers)
    (hlock : t.lock = s.lock) (hfaults : t.faults = [] → s.faults = [])
    (hinit : t.initialized = false → s.initialized = false)
    (hmaster : t.masterState ≠ .idle → s.masterState ≠ .idle ∧ t.completion = s.completion) : t.InvExcept o :=
  h.mono hdata (by rw [State.callersWf, hcallers]; exact h.list) (fun b _ => getCaller_congr hcallers b)
    (fun _ _ hb => hlock.trans hb) hfaults hinit hmaster

/-! One rule per operation. -/

theorem State.InvExcept.clock (h : s.InvExcept o) (he : ClockEffect s t) : t.InvExcept o := by
  obtain ⟨q, rate, speed, hw, log, rfl, hd⟩ := he
  obtain ⟨hmemory, hcounts, hdma, hrest⟩ := h.data
  exact h.frame ⟨hmemory, hcounts, hd hdma, hrest⟩ rfl rfl id id fun hm => ⟨hm, rfl⟩

theorem State.InvExcept.command (h : s.InvExcept o) (he : CommandEffect s t) : t.InvExcept o := h.clock he.clock

theorem State.InvExcept.raiseFault (h : s.InvExcept o) (r : Fault) : (raiseFault r s).InvExcept o :=
  h.frame h.data rfl rfl (fun hf => absurd hf (by simp)) id fun hm => ⟨hm, rfl⟩

/-- The caller left out may write any record of its own. -/
theorem State.InvExcept.setCaller (h : s.InvExcept (some a)) {c : Caller} (hc : c ≠ Caller.idle) :
    (setCaller a c s).InvExcept (some a) :=
  h.mono h.data (callersWf_setCaller s a hc h.list)
    (fun b hb => by rw [getCaller_setCaller s a hc, if_neg (by simpa using hb)]) (fun _ _ hl => hl) id id
    fun hm => ⟨hm, rfl⟩

/-- It may free the lock where it holds it (R191). -/
theorem State.InvExcept.release (h : s.InvExcept (some a)) (hlock : s.lock = .held a) :
    (release s).InvExcept (some a) :=
  h.mono h.data h.list (fun _ _ => rfl) (fun b hb hl => by rw [hlock] at hl; cases hl; exact absurd rfl hb) id id
    fun hm => ⟨hm, rfl⟩

/-- It may take the lock where it is free (R190). -/
theorem State.InvExcept.take (h : s.InvExcept (some a)) (hlock : s.lock = .free) :
    ({ s with lock := .held a } : State).InvExcept (some a) :=
  h.mono h.data h.list (fun _ _ => rfl) (fun b _ hl => by rw [hlock] at hl; cases hl) id id fun hm => ⟨hm, rfl⟩

/-- A caller in an operation has its frame. -/
theorem callFrame_inside {c : Caller} {op : EntryPoint} (h : c.op = some op) :
    callFrame c = some { op := op, pc := c.pc, args := c.args } := by simp [callFrame, h]

/-! The ends of a caller's step: at a sub-step, or with a return. -/

/-- A record past the acquire, of a call that interrupted none. -/
theorem callerInv_holder {c : Caller} (hlock : s.lock = .held a) (hinit : s.initialized = true)
    (houter : c.outer = none) (hstep : s.faults = [] → ∀ f, callFrame c = some f → atSubStep f) : CallerInv s a c where
  lock _ := hlock
  second f hf := by rw [houter] at hf; cases hf
  boot hi := by rw [hinit] at hi; cases hi
  subSteps hf f h := h.elim (hstep hf f) (fun ho => by rw [houter] at ho; cases ho)

/-- A record after a return, to a call `f` if one was interrupted. -/
theorem callerInv_afterReturn {outer : Option Frame} (kind : ErrorKind)
    (houter : ∀ f, outer = some f →
      s.initialized = true ∧ (2 ≤ f.pc → s.lock = .held a) ∧ (s.faults = [] → atSubStep f)) :
    CallerInv s a (afterReturn outer kind) := by
  cases outer with
  | none =>
    exact
      { lock := fun h => absurd h (by simp [afterReturn]), second := fun f hf => absurd hf (by simp [afterReturn]),
        boot := fun _ => ⟨by simp [afterReturn], fun _ => rfl⟩,
        subSteps := fun _ f hf => absurd hf (by simp [afterReturn, callFrame]) }
  | some f =>
    obtain ⟨hinit, hlock, hstep⟩ := houter f rfl
    exact
      { lock := hlock, second := fun g hg => absurd hg (by simp [afterReturn]),
        boot := fun hi => absurd hi (by simp [hinit]),
        subSteps := fun hf g hg => by
          rcases hg with hg | hg <;> cases hg
          exact hstep hf }

theorem inv_setPc {n : Nat} (h : s.InvExcept (some a)) (hop : (getCaller s a).op ≠ none) (hlock : s.lock = .held a)
    (hinit : s.initialized = true) (houter : (getCaller s a).outer = none)
    (hstep : s.faults = [] → ∀ f, callFrame (getCaller s a) = some f → atSubStep { f with pc := n }) :
    (setPc a n s).Inv := by
  refine (h.setCaller (withPc_ne_idle n hop)).restore ?_
  rw [getCaller_setCaller s a (withPc_ne_idle n hop), if_pos rfl]
  refine callerInv_holder hlock hinit houter fun hf f hc => ?_
  obtain ⟨op, hop', rfl⟩ := Option.map_eq_some_iff.1 hc
  exact hstep hf _ (callFrame_inside hop')

theorem inv_returnCall {op : EntryPoint} {kind : ErrorKind} (h : s.InvExcept (some a))
    (houter : ∀ f, (getCaller s a).outer = some f →
      s.initialized = true ∧ (2 ≤ f.pc → s.lock = .held a) ∧ (s.faults = [] → atSubStep f)) :
    (returnCall a op kind s).Inv := by
  have hlogged : ({ s with resultLog := s.resultLog ++ [{ caller := a, op := op, kind := kind }] } : State).InvExcept
      (some a) := h.frame h.data rfl rfl id id fun hm => ⟨hm, rfl⟩
  refine (hlogged.setCaller (afterReturn_ne_idle (getCaller s a).outer kind)).restore ?_
  rw [getCaller_setCaller _ a (afterReturn_ne_idle _ kind), if_pos rfl]
  exact callerInv_afterReturn kind houter

end records

/-! ### A caller's call keeps the invariant -/

/-- An operation at a sub-step stays at one as it goes on (R192, R262, R263). -/
theorem atSubStep_goTo {f : Frame} {n : Nat} (h : atSubStep f)
    (hn : n = 2 ∨ (f.op = .transfer ∧ (n = 4 ∨ n = 5 ∨ n = 6 ∨ n = 7))) : atSubStep { f with pc := n } := by
  obtain ⟨op, pc, args⟩ := f
  unfold atSubStep at h ⊢
  dsimp only at h hn ⊢
  split at h
  · omega
  · exact .inr (hn.resolve_right (by simp))
  · exact .inr (hn.resolve_right (by simp))
  · exact h.elim

section calls
variable {s t : State} {a : Nat} {op : EntryPoint} {args : CallArgs}

/-- A caller that may call is in no operation, or holds the lock inside one call that is not between its arm and its
wake; so the master does not run for it. -/
theorem State.Inv.except_of_free (h : s.Inv) (hfree : callerBusy s a = false) : s.InvExcept (some a) := by
  refine h.except (.inr ?_)
  rcases (callerBusy_eq_false_iff s a).1 hfree with hidle | ⟨-, -, hwait⟩
  · exact fun hw => absurd (hidle.symm.trans hw.1) nofun
  · exact hwait

/-- The operation a second call interrupts is one of the lock's holder, and not between its arm and its wake (R190). -/
theorem holder_of_callFrame {f : Frame} (hfree : callerBusy s a = false) (hf : callFrame (getCaller s a) = some f) :
    s.lock = .held a ∧ awaitsSignal f = false := by
  rcases (callerBusy_eq_false_iff s a).1 hfree with hidle | ⟨hlock, -, hwait⟩
  · rw [callFrame_free hidle] at hf; cases hf
  · obtain ⟨op, hop, rfl⟩ := Option.map_eq_some_iff.1 hf
    refine ⟨hlock, decide_eq_false fun hw => hwait ⟨hop.trans (congrArg some hw.1), hw.2⟩⟩

theorem enterCall_except (h : s.InvExcept (some a)) : (enterCall a op args s).InvExcept (some a) :=
  h.setCaller (entered_ne_idle op 1 args none _)

theorem enterCall_outer : (getCaller (enterCall a op args s) a).outer = callFrame (getCaller s a) := by
  rw [getCaller_enterCall, if_pos rfl]

/-- A caller is in an operation only after INIT, unless a fault is recorded (70_reset_and_hazards.md R360). -/
theorem State.Inv.initialized_of_inside (h : s.Inv) (hf : s.faults = []) (hop : (getCaller s a).op ≠ none) :
    s.initialized = true := by
  rw [← Bool.not_eq_false]
  exact fun hi => hop ((h.boot hi).2 hf a)

/-- The call a second call interrupts may be gone back to. -/
theorem interrupted_resumes {f : Frame} (h : s.Inv) (hf : s.faults = []) (hframe : callFrame (getCaller s a) = some f) :
    s.initialized = true ∧ (2 ≤ f.pc → s.lock = .held a) ∧ atSubStep f := by
  obtain ⟨op, hop, rfl⟩ := Option.map_eq_some_iff.1 hframe
  have hinit : s.initialized = true := h.initialized_of_inside (a := a) hf (by simp [hop])
  exact ⟨hinit, (h.caller a).lock, (h.caller a).subSteps hf _ (.inl hframe)⟩

/-- The record of a caller that has entered an operation, legal where the operation may stand at sub-step 1 after INIT,
and where a fault is recorded. -/
theorem callerInv_entered (h : s.Inv) (hfree : callerBusy s a = false) (hlock : t.lock = s.lock)
    (hstep : t.faults = [] → s.faults = [] ∧ t.initialized = true ∧ atSubStep { op := op, pc := 1, args := args }) :
    CallerInv t a { op := some op, pc := 1, args := args, result := none, outer := callFrame (getCaller s a) } where
  lock hpc := absurd hpc (by simp)
  second f hf := ⟨hlock.trans (holder_of_callFrame hfree hf).1, nofun, rfl, (holder_of_callFrame hfree hf).2⟩
  boot hi := ⟨Nat.le_refl 1, fun hf => absurd (hstep hf).2.1 (by simp [hi])⟩
  subSteps hf f hframe := by
    obtain ⟨hs, -, hat⟩ := hstep hf
    rcases hframe with hin | hout
    · cases hin; exact hat
    · exact (h.caller a).subSteps hs f (.inl hout)

/-- A caller waits at sub-step 1 of an operation it has entered. -/
theorem inv_enterCall (h : s.Inv) (hfree : callerBusy s a = false) (hinit : s.initialized = true)
    (hstep : atSubStep { op := op, pc := 1, args := args }) : (enterCall a op args s).Inv := by
  refine (enterCall_except (h.except_of_free hfree)).restore ?_
  rw [getCaller_enterCall, if_pos rfl]
  exact callerInv_entered h hfree rfl fun hf => ⟨hf, hinit, hstep⟩

/-- A call that ends at a fault: its caller stays at sub-step 1, and no agent has a step any more (60_exceptions.md
R323). -/
theorem inv_enterCall_fault (h : s.Inv) (hfree : callerBusy s a = false) (r : Fault) :
    (raiseFault r (enterCall a op args s)).Inv := by
  refine ((enterCall_except (h.except_of_free hfree)).raiseFault r).restore ?_
  rw [show getCaller (raiseFault r (enterCall a op args s)) a = getCaller (enterCall a op args s) a from rfl,
    getCaller_enterCall, if_pos rfl]
  exact callerInv_entered h hfree rfl fun hf => absurd hf (by simp)

/-- With the lock free the master is Idle and no caller is inside a second call. -/
theorem State.Inv.of_lock_free (h : s.Inv) (hlock : s.lock = .free) :
    s.masterState = .idle ∧ ∀ a, (getCaller s a).outer = none := by
  refine ⟨Classical.byContradiction fun hm => ?_, fun a => ?_⟩
  · obtain ⟨-, b, hb, -⟩ := h.master hm
    rw [hlock] at hb; cases hb
  · cases hf : (getCaller s a).outer with
    | none => rfl
    | some f => have hb := (h.second a f hf).1; rw [hlock] at hb; cases hb

/-- A caller at sub-step 1 takes the lock or goes on waiting for it (R190). -/
theorem inv_acquire (h : s.Inv) (hop : (getCaller s a).op ≠ none) (hinit : s.initialized = true) :
    (acquire a s).Inv := by
  rcases acquire_cases s a with ⟨hlock, heq⟩ | ⟨-, heq⟩ <;> rw [heq]
  · obtain ⟨hmaster, houter⟩ := h.of_lock_free hlock
    exact inv_setPc ((h.except (.inl hmaster)).take hlock) hop rfl hinit (houter a)
      fun hf f hc => atSubStep_goTo ((h.caller a).subSteps hf f (.inl hc)) (.inl rfl)
  · exact h

/-! INIT (41_baud_lifecycle.md R175): before it no caller is in an operation, so the reset inside it takes the lock from
nobody. -/

/-- A record in no operation is legal in every state. -/
theorem callerInv_outside {c : Caller} (hop : c.op = none) (hpc : c.pc ≤ 1) (houter : c.outer = none) :
    CallerInv s a c where
  lock h := absurd h (by omega)
  second _ hf := by rw [houter] at hf; cases hf
  boot _ := ⟨hpc, fun _ => hop⟩
  subSteps _ f h := by rw [callFrame_free hop, houter] at h; exact h.elim nofun nofun

theorem initState_except {o : Option Nat} (h : s.InvExcept o) (hinit : s.initialized = false) (hf : s.faults = []) :
    (initState s).InvExcept o where
  data := by
    obtain ⟨hmemory, hcounts, -, -, -, hfresh⟩ := h.data
    exact ⟨hmemory, hcounts, ⟨Nat.le_refl 0, Nat.zero_le 256⟩, ⟨fun _ => rfl, fun _ => rfl⟩, ⟨nofun, nofun⟩, hfresh⟩
  list := h.list
  each b hb := by
    have hc : CallerInv s b (getCaller s b) := h.each b hb
    obtain ⟨hpc, hop⟩ := hc.boot hinit
    refine callerInv_outside (hop hf) hpc ?_
    cases hout : (getCaller s b).outer with
    | none => exact hout
    | some f => exact absurd (hop hf) (hc.second f hout).2.1
  master hm := absurd rfl hm

theorem inv_startLogs (h : s.Inv) (hinit : s.initialized = true) : (startLogs s).Inv := by
  obtain ⟨hmemory, hcounts, hdma, hslave, hsegments, -⟩ := h.exceptNone.data
  exact (h.exceptNone.frame (t := startLogs s)
    ⟨hmemory, hcounts, hdma, hslave, hsegments, fun hi => absurd (hinit.symm.trans hi) nofun⟩ rfl rfl id id
    fun hm => ⟨hm, rfl⟩).inv

/-- A call keeps the invariant, whatever becomes of it. -/
theorem CallRun.inv (hrun : CallRun s a t) (h : s.Inv) (hf : s.faults = []) : t.Inv := by
  cases hrun with
  | busy => exact h
  | faults op args r hfree => exact inv_enterCall_fault h hfree r
  | returns op args kind u hfree heffect =>
    refine inv_returnCall ((enterCall_except (h.except_of_free hfree)).clock heffect) fun f hframe => ?_
    rw [getCaller_congr heffect.callers, enterCall_outer] at hframe
    obtain ⟨hinit, hlock, hstep⟩ := interrupted_resumes h hf hframe
    exact ⟨heffect.initialized.trans hinit, fun hpc => heffect.lock.trans (hlock hpc), fun _ => hstep⟩
  | locks op args hfree hinit hstep =>
    refine inv_acquire (inv_enterCall h hfree hinit hstep) ?_ hinit
    rw [getCaller_enterCall, if_pos rfl]
    nofun
  | bringsUp u v hfree hinit hclock henable =>
    have hreset : (initState u).InvExcept (some a) :=
      initState_except ((enterCall_except (h.except_of_free hfree)).clock hclock) (hclock.initialized.trans hinit)
        (hclock.faults.trans hf)
    have hv : v.InvExcept (some a) := hreset.command henable
    obtain ⟨hmemory, hcounts, hdma, hslave, hsegments, -⟩ := hv.data
    have hup : ({ v with initialized := true } : State).InvExcept (some a) :=
      hv.frame ⟨hmemory, hcounts, hdma, hslave, hsegments, nofun⟩ rfl rfl id nofun fun hm => ⟨hm, rfl⟩
    have houter : (getCaller v a).outer = none := by
      rw [getCaller_congr henable.clock.callers, getCaller_congr (t := initState u) (s := u) rfl,
        getCaller_congr hclock.callers, enterCall_outer]
      exact callFrame_free ((h.boot hinit).2 hf a)
    exact inv_startLogs (inv_returnCall hup fun f hframe => absurd (houter.symm.trans hframe) nofun) rfl

end calls

/-! ### A caller's later sub-steps keep it -/

section subSteps
variable {s t u : State} {a n : Nat} {kind : ErrorKind}

/-- A caller past its acquire interrupted no call (R190). -/
theorem State.Inv.outer_eq_none (h : s.Inv) (hpc : 2 ≤ (getCaller s a).pc) : (getCaller s a).outer = none := by
  cases hf : (getCaller s a).outer with
  | none => rfl
  | some f => obtain ⟨-, -, hone, -⟩ := h.second a f hf; omega

/-- The master is Idle while the lock's holder does not wait for its transfer (44_slave_engine.md R263). -/
theorem State.Inv.master_idle (h : s.Inv) (hlock : s.lock = .held a)
    (hwait : ¬((getCaller s a).op = some .transfer ∧ (getCaller s a).pc = 5)) : s.masterState = .idle := by
  refine Classical.byContradiction fun hm => ?_
  obtain ⟨-, b, hb, hop, hpc⟩ := h.master hm
  rw [hlock] at hb
  cases hb
  exact hwait ⟨hop, hpc⟩

/-- A transfer past its acquire goes on to another sub-step, whatever its step wrote beside the callers and the lock. -/
theorem inv_goTo (h : s.Inv) (hf : s.faults = []) (hop : (getCaller s a).op = some .transfer)
    (hpc : 2 ≤ (getCaller s a).pc) (hu : u.InvExcept (some a)) (hcallers : u.callers = s.callers)
    (hlock : u.lock = s.lock) (hinit : u.initialized = s.initialized) (hn : n = 4 ∨ n = 5 ∨ n = 6 ∨ n = 7) :
    (setPc a n u).Inv := by
  have hc : getCaller u a = getCaller s a := getCaller_congr hcallers a
  refine inv_setPc hu (by simp [hc, hop]) (hlock.trans (h.lock a hpc))
    (hinit.trans (h.initialized_of_inside (a := a) hf (by simp [hop]))) (hc ▸ h.outer_eq_none hpc) fun _ f hframe => ?_
  rw [hc] at hframe
  refine atSubStep_goTo ((h.caller a).subSteps hf f (.inl hframe)) (.inr ⟨?_, hn⟩)
  rw [callFrame_inside hop] at hframe
  cases hframe
  rfl

/-- An operation past its acquire returns, whatever its step wrote beside the callers. -/
theorem inv_finish {op : EntryPoint} (h : s.Inv) (hpc : 2 ≤ (getCaller s a).pc) (hu : u.InvExcept (some a))
    (hcallers : u.callers = s.callers) : (returnCall a op kind u).Inv :=
  inv_returnCall hu fun f hframe => by
    rw [getCaller_congr hcallers, h.outer_eq_none hpc] at hframe
    cases hframe

theorem inv_transferFill {addr7 : Addr7} {msgs : List Message} (h : s.Inv) (hf : s.faults = [])
    (hop : (getCaller s a).op = some .transfer) (hpc : (getCaller s a).pc = 2) :
    (transferFill a addr7 msgs s).Inv := by
  have hlock : s.lock = .held a := h.lock a (by omega)
  have hidle : s.masterState = .idle := h.master_idle hlock (by omega)
  have hs : s.InvExcept (some a) := h.except (.inl hidle)
  unfold transferFill
  split
  · exact inv_finish h (by omega) (hs.release hlock) rfl
  · rename_i tx rxLen dest hcombine
    obtain ⟨⟨hwf, hcells, hmemory⟩, -, hdma, hslave, -, hfresh⟩ := hs.data
    obtain ⟨hwf', hcells'⟩ := bufWf_bufWriteList 0 tx ⟨hwf, hcells⟩
    have hinit : s.initialized = true := h.initialized_of_inside (a := a) hf (by simp [hop])
    refine inv_goTo h hf hop (by omega) (hs.frame ?_ rfl rfl id id fun hm => ⟨hm, rfl⟩) rfl rfl rfl (.inl rfl)
    exact ⟨⟨hwf', hcells', hmemory⟩, combine_bounds hcombine, hdma, hslave,
      ⟨fun hw => absurd (hidle.symm.trans hw) nofun, fun hr => absurd (hidle.symm.trans hr) nofun⟩,
      fun hi => absurd (hinit.symm.trans hi) nofun⟩

/-- `arm()` puts the master in Start with the completion unsignalled, by commands (R193). -/
theorem effect_arm (s : State) : CommandEffect { s with completion := false, masterState := .start } (arm s) := by
  cases h : s.cfg.hwTimeout with
  | none =>
    have heq : arm s = hwStart { s with completion := false, masterState := .start } := by simp only [arm, h]
    exact heq ▸ effect_hwStart _
  | some t =>
    have heq : arm s = hwStart (hwSetTimeout t { s with completion := false, masterState := .start }) := by
      simp only [arm, h]; rfl
    exact heq ▸ (effect_hwSetTimeout _ t).trans (effect_hwStart _)

theorem setPc_arm : setPc a n (arm s) = arm (setPc a n s) := by
  unfold arm
  cases h : s.cfg.hwTimeout <;> simp [h] <;> rfl

theorem inv_transferArm (h : s.Inv) (hf : s.faults = []) (hop : (getCaller s a).op = some .transfer)
    (hpc : (getCaller s a).pc = 4) : (transferArm a s).Inv := by
  have hlock : s.lock = .held a := h.lock a (by omega)
  have hs : s.InvExcept (some a) := h.except (.inl (h.master_idle hlock (by omega)))
  have hwait : (setPc a 5 s).Inv := inv_goTo h hf hop (by omega) hs rfl rfl rfl (.inr (.inl rfl))
  have hc : getCaller (setPc a 5 s) a = { getCaller s a with pc := 5 } := by
    rw [getCaller_setPc s a (by simp [hop]), if_pos rfl]
  obtain ⟨hmemory, hcounts, hdma, hslave, -, hfresh⟩ := hwait.exceptNone.data
  have hstart : ({ setPc a 5 s with completion := false, masterState := .start } : State).InvExcept none :=
    { data := ⟨hmemory, hcounts, hdma, hslave, ⟨nofun, nofun⟩, hfresh⟩
      list := hwait.callers
      each := fun b hb => (hwait.exceptNone.each b hb).mono id id id
      master := fun _ => ⟨rfl, a, nofun, hlock, (congrArg Caller.op hc).trans hop, congrArg Caller.pc hc⟩ }
  rw [transferArm, setPc_arm]
  exact (hstart.command (effect_arm _)).inv

theorem inv_transferWake (h : s.Inv) (hf : s.faults = []) (hop : (getCaller s a).op = some .transfer)
    (hpc : (getCaller s a).pc = 5) : (transferWake a s).Inv := by
  unfold transferWake
  split
  · rename_i hsignal
    have hidle : s.masterState = .idle := Classical.byContradiction fun hm => by simp [(h.master hm).1] at hsignal
    have hs : s.InvExcept (some a) := h.except (.inl hidle)
    exact inv_goTo h hf hop (by omega) (hs.frame hs.data rfl rfl id id fun hm => absurd hidle hm) rfl rfl rfl
      (.inr (.inr (.inl rfl)))
  · exact h

/-- `timeoutPath()` ends the master by a controller reset (R195). -/
theorem effect_timeoutPath (s : State) :
    CommandEffect { s with masterState := .idle, errorCode := .timeout } (timeoutPath s) := effect_hwReset _

theorem inv_transferExpire (h : s.Inv) (hf : s.faults = []) (hop : (getCaller s a).op = some .transfer)
    (hpc : (getCaller s a).pc = 5) : (transferExpire a s).Inv := by
  unfold transferExpire
  split
  · exact h
  · obtain ⟨hmemory, hcounts, hdma, hslave, -, hfresh⟩ := h.exceptNone.data
    have hidle : ({ s with masterState := .idle, errorCode := .timeout } : State).InvExcept none :=
      h.exceptNone.frame ⟨hmemory, hcounts, hdma, hslave, ⟨nofun, nofun⟩, hfresh⟩ rfl rfl id id fun hm => absurd rfl hm
    have hu : (timeoutPath s).InvExcept (some a) := (hidle.inv.except (.inl rfl)).command (effect_timeoutPath s)
    exact inv_goTo h hf hop (by omega) hu rfl rfl rfl (.inr (.inr (.inl rfl)))

/-- The copy goes to the next sub-step or stops at a fault; either way it wrote the callers' memory alone (R196). -/
theorem transferCopyOut_cases (a : Nat) (s : State) :
    ∃ mem faults, (Memory.wf callerUnlisted s.callerMem → Memory.wf callerUnlisted mem) ∧
      (faults = s.faults ∨ faults = s.faults ++ [.unwrittenBufferRead]) ∧
      (transferCopyOut a s = setPc a 7 { s with callerMem := mem, faults := faults } ∨
        transferCopyOut a s = { s with callerMem := mem, faults := faults }) := by
  have hcopy : ∃ mem faults, (copyOut s).state = { s with callerMem := mem, faults := faults } ∧
      (Memory.wf callerUnlisted s.callerMem → Memory.wf callerUnlisted mem) ∧
      (faults = s.faults ∨ faults = s.faults ++ [.unwrittenBufferRead]) := by
    unfold copyOut
    split
    · exact copyLoop_state _ _ _ _
    · exact ⟨_, _, rfl, id, .inl rfl⟩
  obtain ⟨mem, faults, hstate, hwf, hfaults⟩ := hcopy
  refine ⟨mem, faults, hwf, hfaults, ?_⟩
  unfold transferCopyOut
  cases h : copyOut s <;> rw [h] at hstate <;> cases hstate
  · exact .inl rfl
  · exact .inr rfl
  · exact .inr rfl

theorem inv_transferCopyOut (h : s.Inv) (hf : s.faults = []) (hop : (getCaller s a).op = some .transfer)
    (hpc : (getCaller s a).pc = 6) : (transferCopyOut a s).Inv := by
  obtain ⟨mem, faults, hwf, -, hcases⟩ := transferCopyOut_cases a s
  obtain ⟨⟨htx, htx', hrx, hrx', hmem⟩, hrest⟩ := h.exceptNone.data
  have hcopied : ({ s with callerMem := mem, faults := faults } : State).InvExcept none :=
    h.exceptNone.frame ⟨⟨htx, htx', hrx, hrx', hwf hmem⟩, hrest⟩ rfl rfl (fun _ => hf) id fun hm => ⟨hm, rfl⟩
  rcases hcases with heq | heq <;> rw [heq]
  · have hidle : s.masterState = .idle := h.master_idle (h.lock a (by omega)) (by omega)
    exact inv_goTo h hf hop (by omega) (hcopied.inv.except (.inl hidle)) rfl rfl rfl (.inr (.inr (.inr rfl)))
  · exact hcopied.inv

theorem inv_transferReturn (h : s.Inv) (hpc : (getCaller s a).pc = 7) : (transferReturn a s).Inv := by
  have hlock : s.lock = .held a := h.lock a (by omega)
  have hs : s.InvExcept (some a) := h.except (.inl (h.master_idle hlock (by omega)))
  have hforgot : ({ s with readDest := none } : State).InvExcept (some a) :=
    hs.frame hs.data rfl rfl id id fun hm => ⟨hm, rfl⟩
  exact inv_finish h (by omega) (hforgot.release hlock) rfl

/-- Step 2 of a registration returns `Busy`, or sets the configuration, arms the match by commands and goes to Start
(44_slave_engine.md R262). -/
theorem registerBody_cases (a : Nat) (cfg : SlaveConfig) (s : State) :
    registerBody a cfg s = returnCall a .slaveRegister .busy (release s) ∨
    ∃ u, CommandEffect { s with slaveConfig := some cfg } u ∧
      registerBody a cfg s = returnCall a .slaveRegister .ok (release { u with slaveState := .start }) := by
  unfold registerBody
  split
  · exact .inl rfl
  · exact .inr ⟨_, (effect_hwSetSlaveAddr _ true cfg.addr7).trans (effect_hwMatchIrq _ true), rfl⟩

/-- Step 2 of an unregistration returns a failure, or disarms the match by commands and goes to Idle (R263). -/
theorem unregisterBody_cases (a : Nat) (s : State) :
    (∃ kind, unregisterBody a s = returnCall a .slaveUnregister kind (release s)) ∨
    ∃ u, CommandEffect s u ∧ unregisterBody a s =
      returnCall a .slaveUnregister .ok (release { u with slaveState := .idle, slaveConfig := none }) := by
  unfold unregisterBody
  split
  · exact .inl ⟨_, rfl⟩
  · split
    · exact .inl ⟨_, rfl⟩
    · exact .inr ⟨_, ((effect_hwSetSlaveAddr s false 0#7).trans (effect_hwMatchIrq _ false)).trans
        (effect_hwAckStatus _ 0xFF#8), rfl⟩

theorem inv_registerBody {cfg : SlaveConfig} (h : s.Inv) (hpc : (getCaller s a).pc = 2) :
    (registerBody a cfg s).Inv := by
  have hlock : s.lock = .held a := h.lock a (by omega)
  have hs : s.InvExcept (some a) := h.except (.inr (by omega))
  rcases registerBody_cases a cfg s with heq | ⟨u, ⟨hw, log, rfl, hd⟩, heq⟩ <;> rw [heq]
  · exact inv_finish h (by omega) (hs.release hlock) rfl
  · obtain ⟨hmemory, hcounts, hdma, -, hrest⟩ := hs.data
    have hset : State.InvExcept (some a) { s with
        slaveConfig := some cfg, slaveState := .start, hw := hw, cmdLog := s.cmdLog ++ log } :=
      hs.frame ⟨hmemory, hcounts, hd hdma, ⟨nofun, nofun⟩, hrest⟩ rfl rfl id id fun hm => ⟨hm, rfl⟩
    exact inv_finish h (by omega) (hset.release hlock) rfl

theorem inv_unregisterBody (h : s.Inv) (hpc : (getCaller s a).pc = 2) : (unregisterBody a s).Inv := by
  have hlock : s.lock = .held a := h.lock a (by omega)
  have hs : s.InvExcept (some a) := h.except (.inr (by omega))
  rcases unregisterBody_cases a s with ⟨kind, heq⟩ | ⟨u, heffect, heq⟩ <;> rw [heq]
  · exact inv_finish h (by omega) (hs.release hlock) rfl
  · have hu : u.InvExcept (some a) := hs.command heffect
    obtain ⟨hmemory, hcounts, hdma, -, hrest⟩ := hu.data
    have hset : ({ u with slaveState := .idle, slaveConfig := none } : State).InvExcept (some a) :=
      hu.frame ⟨hmemory, hcounts, hdma, ⟨fun _ => rfl, fun _ => rfl⟩, hrest⟩ rfl rfl id id fun hm => ⟨hm, rfl⟩
    exact inv_finish h (by omega) (hset.release (heffect.clock.lock.trans hlock)) heffect.clock.callers

theorem inv_lockExpire {op : EntryPoint} (h : s.Inv) (hf : s.faults = []) (hop : (getCaller s a).op ≠ none)
    (hpc : (getCaller s a).pc = 1) : (lockExpire a op s).Inv := by
  rcases lockExpire_cases s a op with ⟨-, heq⟩ | ⟨-, heq⟩ <;> rw [heq]
  · exact h
  · refine inv_returnCall (h.except (.inr (by omega))) fun f hframe => ?_
    exact ⟨h.initialized_of_inside hf hop, fun _ => (h.second a f hframe).1,
      fun _ => (h.caller a).subSteps hf f (.inr hframe)⟩

/-- Every sub-step of a caller keeps the invariant. -/
theorem inv_advanceCaller (h : s.Inv) (hf : s.faults = []) : (advanceCaller a s).Inv := by
  rcases advanceCaller_cases a s with ⟨op, hop, -, -, heq⟩ | ⟨hop, htransfer⟩ | ⟨cfg, -, hpc, -, heq⟩ |
    ⟨-, hpc, heq⟩ | heq
  · rw [heq]
    have hinside : (getCaller s a).op ≠ none := by simp [hop]
    exact inv_acquire h hinside (h.initialized_of_inside hf hinside)
  · rcases htransfer with ⟨_, _, hpc, -, heq⟩ | ⟨hpc, heq⟩ | ⟨hpc, heq⟩ | ⟨hpc, heq⟩ | ⟨hpc, heq⟩ <;> rw [heq]
    · exact inv_transferFill h hf hop hpc
    · exact inv_transferArm h hf hop hpc
    · exact inv_transferWake h hf hop hpc
    · exact inv_transferCopyOut h hf hop hpc
    · exact inv_transferReturn h hpc
  · exact heq ▸ inv_registerBody h hpc
  · exact heq ▸ inv_unregisterBody h hpc
  · exact heq.symm ▸ h

theorem inv_expireCaller (h : s.Inv) (hf : s.faults = []) : (expireCaller a s).Inv := by
  rcases expireCaller_cases a s with ⟨op, hop, hpc, -, heq⟩ | ⟨hop, hpc, heq⟩ | heq <;> rw [heq]
  · exact inv_lockExpire h hf (by simp [hop]) hpc
  · exact inv_transferExpire h hf hop hpc
  · exact h

end subSteps

/-! ### What the master engine can do (43_master_engine.md R220 to R237) -/

/-- The master's rows write the master's own fields, the register block and the command log. They keep the DMA's and the
count's bounds, leave Idle nowhere, signal nothing while the master runs on, and go to Write and Read only with a
segment to move. -/
structure MasterMoves (s t : State) : Prop where
  frame : t = { s with
    masterState := t.masterState, rxCount := t.rxCount, errorCode := t.errorCode, completion := t.completion,
    hw := t.hw, cmdLog := t.cmdLog }
  dma : s.hw.dmaOk → t.hw.dmaOk
  count : s.hw.dmaOk → s.rxCount ≤ 256 → t.rxCount ≤ 256
  running : t.masterState ≠ .idle → s.masterState ≠ .idle ∧ t.completion = s.completion
  segments : (s.masterState = .write → 0 < s.txCount) ∧ (s.masterState = .read → 0 < s.rxCount) →
    (t.masterState = .write → 0 < t.txCount) ∧ (t.masterState = .read → 0 < t.rxCount)

theorem MasterMoves.refl (s : State) : MasterMoves s s := ⟨rfl, id, fun _ h => h, fun h => ⟨h, rfl⟩, id⟩

theorem MasterMoves.trans {s t u : State} (h : MasterMoves s t) (k : MasterMoves t u) : MasterMoves s u where
  frame := by have hu := k.frame; rw [h.frame] at hu; exact hu
  dma := k.dma ∘ h.dma
  count hd hc := k.count (h.dma hd) (h.count hd hc)
  running hu := by
    obtain ⟨ht, hcu⟩ := k.running hu
    obtain ⟨hs, hct⟩ := h.running ht
    exact ⟨hs, hcu.trans hct⟩
  segments := k.segments ∘ h.segments

section masterMoves
variable {s t : State}

theorem CommandEffect.masterMoves (h : CommandEffect s t) : MasterMoves s t := by
  obtain ⟨hw, log, rfl, hd⟩ := h
  exact ⟨rfl, hd, fun _ h => h, fun h => ⟨h, rfl⟩, id⟩

theorem moves_endMaster (e : ErrorKind) (s : State) : MasterMoves s (endMaster e s) :=
  ⟨rfl, id, fun _ h => h, fun h => absurd rfl h, fun _ => ⟨nofun, nofun⟩⟩

/-- A running master goes on, after commands, to a state whose segment there is. -/
theorem moves_running (h : CommandEffect s t) (p : Phase) (hrun : s.masterState ≠ .idle)
    (hwrite : p = .write → 0 < s.txCount) (hread : p = .read → 0 < s.rxCount) :
    MasterMoves s { t with masterState := p } := by
  obtain ⟨hw, log, rfl, hd⟩ := h
  exact ⟨rfl, hd, fun _ h => h, fun _ => ⟨hrun, rfl⟩, fun _ => ⟨hwrite, hread⟩⟩

/-- A terminal row ends the master after its commands (R221). -/
theorem moves_terminal (h : CommandEffect s t) (e : ErrorKind) : MasterMoves s (endMaster e t) :=
  h.masterMoves.trans (moves_endMaster e t)

theorem moves_mDrStartQuick (hrun : s.masterState ≠ .idle) : MasterMoves s (mDrStartQuick s).state :=
  moves_running ((effect_hwStallEn s).trans (effect_hwSendAddr _ (addrQuick s.deviceAddress))) .quick hrun nofun nofun

theorem moves_mDrStartRead (hrun : s.masterState ≠ .idle) (hrx : 0 < s.rxCount) :
    MasterMoves s (mDrStartRead s).state :=
  moves_running ((effect_hwStallEn s).trans (effect_hwSendAddr _ (addrRead s.deviceAddress))) .read hrun nofun
    fun _ => hrx

theorem moves_mDrStartWrite (hrun : s.masterState ≠ .idle) (htx : 0 < s.txCount) :
    MasterMoves s (mDrStartWrite s).state :=
  moves_running (effect_hwSendAddr s (addrWrite s.deviceAddress)) .write hrun (fun _ => htx) nofun

theorem moves_mStallRead (s : State) : MasterMoves s (mStallRead s).state := by
  show MasterMoves s (hwStallDis (hwDmaRx (BitVec.ofNat 16 s.rxCount) (hwDmaNackLast s)))
  exact (((effect_hwDmaNackLast s).trans (effect_hwDmaRx _ _)).trans (effect_hwStallDis _)).masterMoves

theorem moves_mDmaWriteRestart (hrun : s.masterState ≠ .idle) (hrx : 0 < s.rxCount) :
    MasterMoves s (mDmaWriteRestart s).state := by
  refine (moves_running (.refl s) .read hrun nofun fun _ => hrx).trans (CommandEffect.masterMoves ?_)
  show CommandEffect _ (hwSendAddr (addrRead s.deviceAddress) (hwStart (hwStallEn { s with masterState := .read })))
  exact ((effect_hwStallEn _).trans (effect_hwStart _)).trans (effect_hwSendAddr _ _)

theorem moves_mDmaRead (s : State) : MasterMoves s (mDmaRead s).state :=
  ⟨rfl, id, fun hd _ => hd.1.trans hd.2, fun h => absurd rfl h, fun _ => ⟨nofun, nofun⟩⟩

end masterMoves

/-- Every row of the master that fires is such a move (R225 to R236). -/
theorem moves_masterRow (snap : Snapshot) : ∀ p ∈ masterGroups.flatten, ∀ s, rowFires p.1 snap s = true →
    MasterMoves s (p.2 s).state := by
  intro p hp s hfires
  have running {q : Phase} (hs : s.masterState = q) (hq : q ≠ .idle) : s.masterState ≠ .idle := hs ▸ hq
  simp only [masterGroups_flatten, List.mem_cons, List.not_mem_nil, or_false] at hp
  rcases hp with rfl | rfl | rfl | rfl | rfl | rfl | rfl | rfl | rfl | rfl | rfl | rfl
  · exact moves_terminal (effect_hwReset s) .timeout
  · exact moves_terminal (effect_abort s) .noAck
  · exact moves_terminal ((effect_abort s).trans (effect_hwReset _)) .busError
  · simp only [rowFires_mDrStartQuick, Bool.and_eq_true, decide_eq_true_eq] at hfires
    obtain ⟨⟨hstart, -⟩, -⟩ := hfires
    exact moves_mDrStartQuick (running hstart nofun)
  · simp only [rowFires_mDrStartRead, Bool.and_eq_true, decide_eq_true_eq] at hfires
    obtain ⟨⟨hstart, -⟩, -, hrx⟩ := hfires
    exact moves_mDrStartRead (running hstart nofun) hrx
  · simp only [rowFires_mDrStartWrite, Bool.and_eq_true, decide_eq_true_eq] at hfires
    obtain ⟨⟨hstart, -⟩, htx⟩ := hfires
    exact moves_mDrStartWrite (running hstart nofun) htx
  · exact (effect_hwDmaTx s _).masterMoves
  · exact moves_mStallRead s
  · exact moves_terminal (effect_hwStop s) .ok
  · exact moves_terminal (effect_hwStop s) .ok
  · simp only [rowFires_mDmaWriteRestart, Bool.and_eq_true, decide_eq_true_eq] at hfires
    obtain ⟨⟨hwrite, -⟩, hrx⟩ := hfires
    exact moves_mDmaWriteRestart (running hwrite nofun) hrx
  · exact moves_mDmaRead s

/-! ### What the slave engine can do (44_slave_engine.md R260 to R281) -/

/-- The slave's rows write the slave's own fields, the register block, the logs and, where `tx` allows it, the transmit
buffer with its count. They keep the DMA's bounds and the count's, and go to Idle nowhere. -/
structure SlaveMoves (tx : Bool) (s t : State) : Prop where
  frame : t = { s with
    slaveState := t.slaveState, txBuffer := t.txBuffer, txCount := t.txCount, slaveErrors := t.slaveErrors,
    faults := t.faults, hw := t.hw, cmdLog := t.cmdLog, cbLog := t.cbLog, oracle := t.oracle }
  dma : s.hw.dmaOk → t.hw.dmaOk
  count : s.txCount ≤ 256 → t.txCount ≤ 256
  active : s.slaveState ≠ .idle → t.slaveState ≠ .idle
  transmit : tx = false → t.txBuffer = s.txBuffer ∧ t.txCount = s.txCount

theorem SlaveMoves.refl (tx : Bool) (s : State) : SlaveMoves tx s s := ⟨rfl, id, id, id, fun _ => ⟨rfl, rfl⟩⟩

theorem SlaveMoves.trans {tx : Bool} {s t u : State} (h : SlaveMoves tx s t) (k : SlaveMoves tx t u) :
    SlaveMoves tx s u where
  frame := by have hu := k.frame; rw [h.frame] at hu; exact hu
  dma := k.dma ∘ h.dma
  count := k.count ∘ h.count
  active := k.active ∘ h.active
  transmit htx := ⟨(k.transmit htx).1.trans (h.transmit htx).1, (k.transmit htx).2.trans (h.transmit htx).2⟩

section slaveMoves
variable {s t : State} {tx : Bool}

theorem CommandEffect.slaveMoves (h : CommandEffect s t) : SlaveMoves tx s t := by
  obtain ⟨hw, log, rfl, hd⟩ := h
  exact ⟨rfl, hd, id, id, fun _ => ⟨rfl, rfl⟩⟩

theorem moves_raiseFault (r : Fault) (s : State) : SlaveMoves tx s (raiseFault r s) :=
  ⟨rfl, id, id, id, fun _ => ⟨rfl, rfl⟩⟩

theorem moves_reportSlave (e : SlaveError) (s : State) : SlaveMoves tx s (reportSlave e s) :=
  ⟨rfl, id, id, id, fun _ => ⟨rfl, rfl⟩⟩

theorem moves_slaveState (p : Phase) (hp : p ≠ .idle) (s : State) : SlaveMoves tx s { s with slaveState := p } :=
  ⟨rfl, id, id, fun _ => hp, fun _ => ⟨rfl, rfl⟩⟩

theorem moves_callSlave (c : Callback) (s : State) : SlaveMoves tx s (callSlave c s).state := by
  rcases callSlave_cases c s with ⟨st, b, -, h⟩ | ⟨-, h⟩ <;> rw [h, usedCallbackAnswer_eq] <;>
    exact ⟨rfl, id, id, id, fun _ => ⟨rfl, rfl⟩⟩

theorem moves_flush (s : State) : SlaveMoves tx s (flush s).state :=
  flush_keeps (P := SlaveMoves tx s) (fun t h => h.trans (effect_hwReadDmaCount t).slaveMoves)
    (fun c t h => h.trans (moves_callSlave c t)) (fun r t h => h.trans (moves_raiseFault r t)) s (.refl tx s)

theorem moves_flushIfWrite (s : State) : SlaveMoves tx s (flushIfWrite s).state := by
  unfold flushIfWrite
  split
  · exact moves_flush s
  · exact .refl tx s

theorem moves_prefill (s : State) : SlaveMoves true s (prefill s).state :=
  prefill_keeps (P := SlaveMoves true s) (fun c t h => h.trans (moves_callSlave c t))
    (fun _ _ _ h => h.trans ⟨rfl, id, id, id, nofun⟩) s (.refl true s)

theorem moves_txDecision {k : Nat} (hk : k ≤ 256) (s : State) : SlaveMoves true s (txDecision k s) := by
  unfold txDecision
  split
  · exact ⟨rfl, id, fun _ => Nat.zero_le 256, fun _ => nofun, nofun⟩
  · have hcount : SlaveMoves true s { s with txCount := k } := ⟨rfl, id, fun _ => hk, id, nofun⟩
    exact (hcount.trans (effect_hwDmaTx _ _).slaveMoves).trans (moves_slaveState .read nofun _)

theorem moves_sBer (s : State) : SlaveMoves tx s (sBer s).state := by
  unfold sBer
  split
  · exact (moves_slaveState .start nofun s).trans (effect_hwReset _).slaveMoves
  · exact ((moves_reportSlave .slaveBusError s).trans (moves_slaveState .start nofun _)).trans
      (effect_hwReset _).slaveMoves

theorem moves_sDmaRx (s : State) : SlaveMoves tx s (sDmaRx s).state := by
  unfold sDmaRx
  split
  · exact ((effect_hwReadDmaCount s).trans (effect_hwAckMode _ true)).slaveMoves
  · exact (effect_hwReadDmaCount s).slaveMoves

theorem moves_sAmTx (s : State) : SlaveMoves true s (sAmTx s).state :=
  bind_keeps (P := SlaveMoves true s) (moves_flushIfWrite s) fun _ t _ ht =>
    bind_keeps (P := SlaveMoves true s) (ht.trans (moves_prefill t)) fun _ u hu hm =>
      hm.trans (moves_txDecision (prefill_count t hu) u)

theorem moves_sAmRx (s : State) : SlaveMoves tx s (sAmRx s).state :=
  have harmed := CommandEffect.slaveMoves (tx := tx)
    ((effect_hwAckMode s false).trans (effect_hwDmaRx _ (BitVec.ofNat 16 slaveWindow)))
  bind_keeps (P := SlaveMoves tx s) ((harmed.trans (moves_slaveState .write nofun _)).trans (moves_callSlave _ _))
    fun _ _ _ ht => ht

theorem moves_sDrOverflow (s : State) : SlaveMoves tx s (sDrOverflow s).state :=
  bind_keeps (P := SlaveMoves tx s) (moves_flush s) fun _ t _ ht =>
    bind_keeps (P := SlaveMoves tx s) ((ht.trans (effect_hwReadData t).slaveMoves).trans (moves_callSlave _ _))
      fun _ u _ hu => hu.trans (moves_slaveState .start nofun u)

theorem moves_stopIfActive (s : State) : SlaveMoves tx s (stopIfActive s).state := by
  unfold stopIfActive
  split
  · exact bind_keeps (P := SlaveMoves tx s) (moves_callSlave _ s) fun _ _ _ ht => ht
  · exact .refl tx s

theorem moves_sStop (s : State) : SlaveMoves tx s (sStop s).state :=
  bind_keeps (P := SlaveMoves tx s) (moves_flushIfWrite s) fun _ t _ ht =>
    bind_keeps (P := SlaveMoves tx s) (ht.trans (moves_stopIfActive t)) fun _ u _ hu =>
      hu.trans (moves_slaveState .start nofun u)

end slaveMoves

/-- Every row of the slave that fires is such a move; the transmit buffer is AM's with XMIT (R270 to R279). -/
theorem moves_slaveRow (snap : Snapshot) : ∀ p ∈ slaveGroups.flatten, ∀ s, rowFires p.1 snap s = true →
    SlaveMoves (snap[4] && snap[8]) s (p.2 s).state := by
  intro p hp s hfires
  simp only [slaveGroups_flatten, List.mem_cons, List.not_mem_nil, or_false] at hp
  rcases hp with rfl | rfl | rfl | rfl | rfl | rfl | rfl | rfl
  · exact ((effect_hwReset s).slaveMoves.trans (moves_slaveState .start nofun _)).trans (moves_reportSlave _ _)
  · exact moves_sBer s
  · exact moves_sDmaRx s
  · rw [rowFires_sAmTx] at hfires
    exact hfires ▸ moves_sAmTx s
  · exact moves_sAmRx s
  · exact moves_sDrOverflow s
  · exact (effect_hwWriteData s fillByte).slaveMoves
  · exact moves_sStop s

/-! ### How an invocation ends (45_dispatcher.md R310, R313) -/

/-- A part of an invocation records no fault and keeps or clears the flags, or it stops at one fault, of kind `F`. -/
def Flow.Ends {α : Type} (F : Fault → Prop) (s : State) : Flow α → Prop
  | .go _ t | .done t => t.faults = s.faults ∧ (t.hw.flags = s.hw.flags ∨ t.hw.flags = Flags.clear)
  | .halt t => ∃ r, F r ∧ t.faults = s.faults ++ [r]

section ends
variable {α β : Type} {F : Fault → Prop} {s t : State}

theorem Flow.Ends.bind {x : Flow α} {f : α → State → Flow β} (hx : x.Ends F s)
    (hf : ∀ a t, x = .go a t → (f a t).Ends F t) : (x.bind f).Ends F s := by
  cases x with
  | go a t =>
    obtain ⟨hfaults, hflags⟩ := hx
    have hnext : (f a t).Ends F t := hf a t rfl
    rw [bind_go]
    cases hy : f a t <;> rw [hy] at hnext
    case halt =>
      obtain ⟨r, hr, hfault⟩ := hnext
      exact ⟨r, hr, hfault.trans (by rw [hfaults])⟩
    all_goals
      obtain ⟨hfaults', hflags'⟩ := hnext
      refine ⟨hfaults'.trans hfaults, hflags'.elim (fun h => ?_) .inr⟩
      exact h ▸ hflags
  | done t => exact hx
  | halt t => exact hx

/-- Commands that clear no flag are such a part. -/
theorem ends_of_eq {x : Flow α} (h : x.Ends F t) (hfaults : t.faults = s.faults) (hflags : t.hw.flags = s.hw.flags) :
    x.Ends F s := by
  cases x <;> simpa only [Flow.Ends, hfaults, hflags] using h

theorem runGroups_ends (snap : Snapshot) (gs : List (List (Row × (State → Flow Unit))))
    (hrow : ∀ p ∈ gs.flatten, ∀ s, (p.2 s).Ends F s) (s : State) : (runGroups snap gs s).Ends F s := by
  induction gs generalizing s with
  | nil => exact ⟨rfl, .inl rfl⟩
  | cons g gs ih =>
    rw [List.flatten_cons] at hrow
    refine Flow.Ends.bind ?_ fun _ t _ => ih (fun p hp => hrow p (List.mem_append_right _ hp)) t
    rcases runGroup_cases snap g s with ⟨p, hp, -, heq⟩ | ⟨-, heq⟩ <;> rw [heq]
    · exact hrow p (List.mem_append_left _ hp) s
    · exact ⟨rfl, .inl rfl⟩

/-- The acknowledge after the engine clears every flag of the snapshot, unless a fault stopped the engine (R313). -/
theorem ackSnapshot_ends {x : Flow Unit} (h : x.Ends F s) :
    ((ackSnapshot (snapshot s) x).faults = s.faults ∧ (ackSnapshot (snapshot s) x).hw.flags = Flags.clear) ∨
    ∃ r, F r ∧ (ackSnapshot (snapshot s) x).faults = s.faults ++ [r] := by
  have hclears {t : State} (hflags : t.hw.flags = s.hw.flags ∨ t.hw.flags = Flags.clear) :
      (hwAckStatus (flagMask (snapshot s)) t).hw.flags = Flags.clear := by
    rcases hflags with h | h <;> simp [hwAckStatus, h, snapshot]
  cases x with
  | go _ t => exact .inl ⟨h.1, hclears h.2⟩
  | done t => exact .inl ⟨h.1, hclears h.2⟩
  | halt t => exact .inr h

/-- No interrupt is pending where no flag is set (10_state.md R52). -/
theorem irqPending_of_clear (h : s.hw.flags = Flags.clear) : irqPending s = false := by
  simp [irqPending, h, Flags.clear]

/-! The master's rows stop at no fault; the slave's only at a callback's violation or an unwritten cell (R323). -/

theorem abort_flags (s : State) : (abort s).hw.flags = Flags.clear := by rw [abort_eq]

theorem masterRow_ends : ∀ p ∈ masterGroups.flatten, ∀ s, (p.2 s).Ends (fun _ => False) s := by
  intro p hp s
  simp only [masterGroups_flatten, List.mem_cons, List.not_mem_nil, or_false] at hp
  rcases hp with rfl | rfl | rfl | rfl | rfl | rfl | rfl | rfl | rfl | rfl | rfl | rfl
  · exact ⟨rfl, .inr rfl⟩
  · exact ⟨(effect_abort s).clock.faults, .inr (abort_flags s)⟩
  · exact ⟨(effect_abort s).clock.faults, .inr (by simp [endMaster, hwReset, resetHw])⟩
  all_goals
    refine ⟨?_, .inl ?_⟩ <;>
      simp [hwSendAddr, hwStart, hwStallEn, hwStallDis, hwDmaTx, hwDmaRx, hwDmaNackLast, hwStop, hwReadDmaCount, armDma,
        endMaster]

/-- The faults of a slave row. -/
def slaveFault (r : Fault) : Prop := r = .callbackReentry ∨ r = .unwrittenBufferRead

theorem callSlave_ends (c : Callback) (s : State) : (callSlave c s).Ends slaveFault s := by
  rcases callSlave_cases c s with ⟨st, b, -, h⟩ | ⟨-, h⟩ <;> rw [h]
  · exact ⟨usedCallbackAnswer_faults s, .inl (by simp)⟩
  · exact ⟨.callbackReentry, .inl rfl, by simp⟩

theorem flushLoop_ends (n i : Nat) (s : State) : (flushLoop n i s).Ends slaveFault s := by
  induction n generalizing i s with
  | zero => exact ⟨rfl, .inl rfl⟩
  | succ n ih =>
    unfold flushLoop
    split
    · exact ⟨.unwrittenBufferRead, .inr rfl, rfl⟩
    · exact (callSlave_ends _ s).bind fun _ t _ => ih (i + 1) t

theorem flush_ends (s : State) : (flush s).Ends slaveFault s :=
  ends_of_eq (flushLoop_ends s.hw.dmaCount 0 (hwReadDmaCount s)) rfl rfl

theorem flushIfWrite_ends (s : State) : (flushIfWrite s).Ends slaveFault s := by
  unfold flushIfWrite
  split
  · exact flush_ends s
  · exact ⟨rfl, .inl rfl⟩

theorem prefillLoop_ends (fuel k : Nat) (s : State) : (prefillLoop fuel k s).Ends slaveFault s := by
  induction fuel generalizing k s with
  | zero => exact ⟨rfl, .inl rfl⟩
  | succ n ih =>
    refine (callSlave_ends _ s).bind fun r t _ => ?_
    split
    · exact ⟨rfl, .inl rfl⟩
    · exact ends_of_eq (ih (k + 1) _) rfl rfl

theorem prefill_ends (s : State) : (prefill s).Ends slaveFault s := by
  refine (callSlave_ends _ s).bind fun r t _ => ?_
  split
  · exact ⟨rfl, .inl rfl⟩
  · exact ends_of_eq (prefillLoop_ends _ 1 _) rfl rfl

theorem sBer_ends (s : State) : (sBer s).Ends slaveFault s := by
  unfold sBer
  split <;> exact ⟨rfl, .inr rfl⟩

theorem sDmaRx_ends (s : State) : (sDmaRx s).Ends slaveFault s := by
  unfold sDmaRx
  split <;> exact ⟨rfl, .inl rfl⟩

theorem sAmTx_ends (s : State) : (sAmTx s).Ends slaveFault s :=
  (flushIfWrite_ends s).bind fun _ t _ => (prefill_ends t).bind fun k u _ => by
    unfold txDecision
    split <;> exact ⟨rfl, .inl rfl⟩

theorem sAmRx_ends (s : State) : (sAmRx s).Ends slaveFault s := by
  refine Flow.Ends.bind (ends_of_eq (callSlave_ends _ _) ?_ ?_) fun _ _ _ => ⟨rfl, .inl rfl⟩ <;>
    simp [hwDmaRx, armDma, hwAckMode]

theorem sDrOverflow_ends (s : State) : (sDrOverflow s).Ends slaveFault s :=
  (flush_ends s).bind fun _ t _ =>
    Flow.Ends.bind (ends_of_eq (callSlave_ends _ (hwReadData t)) rfl rfl) fun _ _ _ => ⟨rfl, .inl rfl⟩

theorem stopIfActive_ends (s : State) : (stopIfActive s).Ends slaveFault s := by
  unfold stopIfActive
  split
  · exact (callSlave_ends .stop s).bind fun _ _ _ => ⟨rfl, .inl rfl⟩
  · exact ⟨rfl, .inl rfl⟩

theorem sStop_ends (s : State) : (sStop s).Ends slaveFault s :=
  (flushIfWrite_ends s).bind fun _ t _ => (stopIfActive_ends t).bind fun _ _ _ => ⟨rfl, .inl rfl⟩

theorem slaveRow_ends : ∀ p ∈ slaveGroups.flatten, ∀ s, (p.2 s).Ends slaveFault s := by
  intro p hp s
  simp only [slaveGroups_flatten, List.mem_cons, List.not_mem_nil, or_false] at hp
  rcases hp with rfl | rfl | rfl | rfl | rfl | rfl | rfl | rfl
  exacts [⟨rfl, .inr rfl⟩, sBer_ends s, sDmaRx_ends s, sAmTx_ends s, sAmRx_ends s, sDrOverflow_ends s,
    ⟨rfl, .inl rfl⟩, sStop_ends s]

end ends

/-! ### The engine an invocation runs (R311) -/

section dispatch
variable {s : State}

theorem exec_irq_ready (h : irqReady s) : exec .irq s = .next (dispatchIrq s) := by
  have henabled : irqEnabled s = true := by rw [irqEnabled, h.1, h.2]; rfl
  exact if_pos henabled

theorem dispatchIrq_master (h : s.masterState ≠ .idle) :
    dispatchIrq s = ackSnapshot (snapshot s) (runGroups (snapshot s) masterGroups (hwReadStatus s)) :=
  if_pos ((routedTo_master (hwReadStatus s)).2 h)

theorem dispatchIrq_slave (h : routedTo .slave s = true) :
    dispatchIrq s = ackSnapshot (snapshot s) (runGroups (snapshot s) slaveGroups (hwReadStatus s)) := by
  have hmaster : ¬ routedTo .master (hwReadStatus s) = true := by
    rw [routedTo_master]; exact not_not.2 ((routedTo_slave s).1 h).1
  have hslave : routedTo .slave (hwReadStatus s) = true := h
  unfold dispatchIrq
  dsimp only
  rw [if_neg hmaster, if_pos hslave]

/-- The spurious guard reads the status and acknowledges (R314). -/
theorem effect_dispatchIrq_spurious (hmaster : s.masterState = .idle) (hslave : routedTo .slave s = false) :
    CommandEffect s (dispatchIrq s) := by
  have hmaster' : ¬ routedTo .master (hwReadStatus s) = true := by rw [routedTo_master]; exact not_not.2 hmaster
  have hslave' : ¬ routedTo .slave (hwReadStatus s) = true := Bool.eq_false_iff.1 hslave
  unfold dispatchIrq
  dsimp only
  rw [if_neg hmaster', if_neg hslave']
  exact (effect_hwReadStatus s).trans (effect_hwAckStatus _ _)

theorem ackSnapshot_masterMoves {x : Flow Unit} (snap : Snapshot) (h : MasterMoves s x.state) :
    MasterMoves s (ackSnapshot snap x) := by
  rcases ackSnapshot_cases snap x with hx | hx <;> rw [hx]
  · exact h.trans (effect_hwAckStatus _ _).masterMoves
  · exact h

theorem ackSnapshot_slaveMoves {tx : Bool} {x : Flow Unit} (snap : Snapshot) (h : SlaveMoves tx s x.state) :
    SlaveMoves tx s (ackSnapshot snap x) := by
  rcases ackSnapshot_cases snap x with hx | hx <;> rw [hx]
  · exact h.trans (effect_hwAckStatus _ _).slaveMoves
  · exact h

theorem moves_dispatchIrq_master (h : s.masterState ≠ .idle) : MasterMoves s (dispatchIrq s) := by
  rw [dispatchIrq_master h]
  exact ackSnapshot_masterMoves _ (runGroups_keeps (P := MasterMoves s) _ _
    (fun p hp t ht hfires => ht.trans (moves_masterRow _ p hp t hfires)) _ (effect_hwReadStatus s).masterMoves)

theorem moves_dispatchIrq_slave (h : routedTo .slave s = true) :
    SlaveMoves (s.hw.flags.am && s.hw.xmit) s (dispatchIrq s) := by
  have htx : ((snapshot s)[4] && (snapshot s)[8]) = (s.hw.flags.am && s.hw.xmit) := by simp [snapshot]
  rw [dispatchIrq_slave h, ← htx]
  exact ackSnapshot_slaveMoves _ (runGroups_keeps (P := SlaveMoves ((snapshot s)[4] && (snapshot s)[8]) s) _ _
    (fun p hp t ht hfires => ht.trans (moves_slaveRow _ p hp t hfires)) _ (effect_hwReadStatus s).slaveMoves)

theorem dispatchIrq_master_ends (h : s.masterState ≠ .idle) : (dispatchIrq s).hw.flags = Flags.clear := by
  have hends : (runGroups (snapshot s) masterGroups (hwReadStatus s)).Ends (fun _ => False) s :=
    ends_of_eq (runGroups_ends _ _ masterRow_ends _) rfl rfl
  rw [dispatchIrq_master h]
  rcases ackSnapshot_ends hends with ⟨-, hflags⟩ | ⟨r, hr, -⟩
  · exact hflags
  · exact hr.elim

theorem dispatchIrq_slave_ends (h : routedTo .slave s = true) :
    ((dispatchIrq s).faults = s.faults ∧ (dispatchIrq s).hw.flags = Flags.clear) ∨
    ∃ r, slaveFault r ∧ (dispatchIrq s).faults = s.faults ++ [r] := by
  rw [dispatchIrq_slave h]
  exact ackSnapshot_ends (ends_of_eq (runGroups_ends _ _ slaveRow_ends _) rfl rfl)

end dispatch

/-- Settles O42: every row of the master is a move of the master, none stops at a fault, and the acknowledge then clears
every flag. -/
theorem masterInterruptKeepsTheSlaveSide : Obligations.MasterInterruptKeepsTheSlaveSide := by
  intro s hready hrun
  have hkeeps : EngineKeeps s (dispatchIrq s) := keeps_dispatchIrq s
  have hflags : (dispatchIrq s).hw.flags = Flags.clear := dispatchIrq_master_ends hrun
  exact ⟨dispatchIrq s, exec_irq_ready hready, hflags, irqPending_of_clear hflags, hkeeps.irqEn, hkeeps.matchEn,
    hkeeps.slaveAddr, hkeeps.matchIrqEn, hkeeps.xmit, (moves_dispatchIrq_master hrun).frame⟩

/-- Settles O43: every row of the slave is a move of the slave, and stops, if at all, at a violation or an unwritten
cell. -/
theorem slaveInterruptKeepsTheMasterSide : Obligations.SlaveInterruptKeepsTheMasterSide := by
  intro s hready ⟨hidle, hcfg, hactive⟩
  have hrouted : routedTo .slave s = true :=
    (routedTo_slave s).2 ⟨hidle, Option.isSome_iff_ne_none.2 hcfg, hactive⟩
  have hkeeps : EngineKeeps s (dispatchIrq s) := keeps_dispatchIrq s
  have hmoves := moves_dispatchIrq_slave hrouted
  refine ⟨dispatchIrq s, exec_irq_ready hready, hmoves.active hactive, hkeeps.irqEn, hkeeps.matchEn, hkeeps.slaveAddr,
    hkeeps.matchIrqEn, hkeeps.xmit, hmoves.transmit, ?_, hmoves.frame⟩
  rcases dispatchIrq_slave_ends hrouted with ⟨hfaults, hflags⟩ | ⟨r, rfl | rfl, hfaults⟩
  · exact .inl ⟨hfaults, hflags, irqPending_of_clear hflags⟩
  · exact .inr (.inl hfaults)
  · exact .inr (.inr hfaults)

/-! ### The engines, the controller and the application keep the invariant -/

section agents
variable {s t : State}

/-- A move of the master keeps the invariant. -/
theorem MasterMoves.inv (m : MasterMoves s t) (h : s.Inv) : t.Inv := by
  obtain ⟨hmemory, ⟨htx, hrx⟩, hdma, hslave, hsegments, hfresh⟩ := h.exceptNone.data
  have hframe := m.frame
  have hdata : t.DataInv :=
    ⟨by rw [hframe]; exact hmemory, ⟨by rw [hframe]; exact htx, m.count hdma hrx⟩, m.dma hdma,
      by rw [hframe]; exact hslave, m.segments hsegments, by rw [hframe]; exact hfresh⟩
  exact (h.exceptNone.frame hdata (by rw [hframe]) (by rw [hframe]) (by rw [hframe]; exact id)
    (by rw [hframe]; exact id) m.running).inv

/-- A move of the slave, registered and with the master Idle, that keeps the engines' frame does too. -/
theorem SlaveMoves.inv {tx : Bool} (m : SlaveMoves tx s t) (k : EngineKeeps s t) (hinit : s.initialized = true)
    (hrouted : routedTo .slave s = true) (h : s.Inv) : t.Inv := by
  obtain ⟨⟨htxWf, htxCells, hrxWf, hrxCells, hmem⟩, ⟨htx, hrx⟩, hdma, -, -, -⟩ := h.exceptNone.data
  obtain ⟨hidle, hcfg, hactive⟩ := (routedTo_slave s).1 hrouted
  obtain ⟨htxWf', htxCells'⟩ := k.txBuffer ⟨htxWf, htxCells⟩
  have hmaster : t.masterState = s.masterState := by rw [m.frame]
  have hrxCount : t.rxCount = s.rxCount := by rw [m.frame]
  have hslave : t.slaveConfig = none ↔ t.slaveState = .idle := by
    rw [k.slaveConfig]
    exact iff_of_false (Option.isSome_iff_ne_none.1 hcfg) (m.active hactive)
  have hdata : t.DataInv :=
    ⟨⟨htxWf', htxCells', k.rxBuffer ▸ hrxWf, k.rxBuffer ▸ hrxCells, k.callerMem ▸ hmem⟩,
      ⟨m.count htx, hrxCount ▸ hrx⟩, m.dma hdma, hslave, by rw [hmaster, hidle]; exact ⟨nofun, nofun⟩,
      fun hi => absurd (hinit.symm.trans (k.initialized.symm.trans hi)) nofun⟩
  refine (h.exceptNone.frame hdata k.callers k.lock (fun hf => ?_) (fun hi => k.initialized.symm.trans hi)
    fun hm => absurd (hmaster.trans hidle) hm).inv
  exact List.prefix_nil.1 (hf ▸ k.faults)

theorem inv_dispatchIrq (h : s.Inv) (hinit : s.initialized = true) : (dispatchIrq s).Inv := by
  by_cases hmaster : s.masterState = .idle
  · cases hrouted : routedTo .slave s with
    | true => exact (moves_dispatchIrq_slave hrouted).inv (keeps_dispatchIrq s) hinit hrouted h
    | false => exact (h.exceptNone.command (effect_dispatchIrq_spurious hmaster hrouted)).inv
  · exact (moves_dispatchIrq_master hmaster).inv h

/-- An instruction keeps the invariant; a handler row runs only after INIT (70_reset_and_hazards.md R360). -/
theorem ExecRun.inv {i : Instr} (hrun : ExecRun i s t) (hinit : i.isKeyRow = true → s.initialized = true) (h : s.Inv)
    (hf : s.faults = []) : t.Inv := by
  cases hrun with
  | still => exact h
  | call hcall => exact hcall.inv h hf
  | command heffect => exact (h.exceptNone.clock heffect).inv
  | interrupt henabled => exact inv_dispatchIrq h (Bool.and_eq_true_iff.1 henabled).1
  | masterRow p snap hkey hp hfires => exact (moves_masterRow snap p hp s hfires).inv h
  | slaveRow p snap hkey hp hrouted hfires =>
    exact (moves_slaveRow snap p hp s hfires).inv (keeps_rows p (List.mem_append_right _ hp) s) (hinit hkey) hrouted h

/-- What a controller action writes: the register block, keeping the DMA's bounds, its log and its count of turns; the
receiving DMA a cell of the receive buffer, and the transmitting one nothing but a fault at an unwritten cell (R331). -/
theorem envEffect_cases (e : EnvAction) (s : State) (henabled : envEnabled s.hw e = true) :
    envEffect e s = raiseFault .unwrittenBufferRead s ∨
    ∃ hw event buf,
      envEffect e s = { s with
        rxBuffer := buf, hw := hw, busLog := s.busLog ++ [event],
        oracle := { s.oracle with turns := s.oracle.turns + 1 } } ∧
      (s.hw.dmaOk → hw.dmaOk) ∧ (buf = s.rxBuffer ∨ ∃ i b, buf = bufWrite s.rxBuffer i b) := by
  have counts {dir : DmaDir} (h : (decide (s.hw.dmaDir = dir) && dmaArmedOpen s.hw) = true) (hd : s.hw.dmaOk) :
      (countByte s.hw).dmaOk := by
    simp only [dmaArmedOpen, Bool.and_eq_true, decide_eq_true_eq] at h
    exact ⟨h.2.2, hd.2⟩
  cases e with
  | dmaTransmit =>
    unfold envEffect dmaTransmitByte
    dsimp only
    split
    · exact .inl rfl
    · exact .inr ⟨_, _, _, rfl, counts henabled, .inl rfl⟩
  | dmaReceive b => exact .inr ⟨_, _, _, rfl, counts henabled, .inr ⟨_, _, rfl⟩⟩
  | raise f => exact .inr ⟨_, _, _, rfl, id, .inl rfl⟩
  | finishStart => exact .inr ⟨_, _, _, rfl, id, .inl rfl⟩
  | finishStop => exact .inr ⟨_, _, _, rfl, id, .inl rfl⟩
  | addressMatch d => exact .inr ⟨_, _, _, rfl, id, .inl rfl⟩
  | dmaComplete => exact .inr ⟨_, _, _, rfl, id, .inl rfl⟩
  | receiveData b => exact .inr ⟨_, _, _, rfl, id, .inl rfl⟩
  | setBusy v => exact .inr ⟨_, _, _, rfl, id, .inl rfl⟩

/-- A controller step is none, or after INIT the effect of an enabled action. -/
theorem envStep_cases (e : EnvAction) (s : State) :
    envStep e s = s ∨ (s.initialized = true ∧ envEnabled s.hw e = true ∧ envStep e s = envEffect e s) := by
  unfold envStep
  split
  · rename_i h
    rw [Bool.and_eq_true] at h
    exact .inr ⟨h.1, h.2, rfl⟩
  · exact .inl rfl

theorem inv_envStep (e : EnvAction) (h : s.Inv) : (envStep e s).Inv := by
  rcases envStep_cases e s with heq | ⟨hinit, henabled, heq⟩ <;> rw [heq]
  · exact h
  · rcases envEffect_cases e s henabled with heq | ⟨hw, event, buf, heq, hd, hbuf⟩ <;> rw [heq]
    · exact (h.exceptNone.raiseFault _).inv
    · obtain ⟨⟨htx, htx', hrx, hrx', hmem⟩, hcounts, hdma, hslave, hsegments, -⟩ := h.exceptNone.data
      have hwf : bufWf buf := by
        rcases hbuf with rfl | ⟨i, b, rfl⟩
        · exact ⟨hrx, hrx'⟩
        · exact bufWf_bufWrite i b ⟨hrx, hrx'⟩
      have hnext := h.exceptNone.frame (t := { s with
          rxBuffer := buf, hw := hw, busLog := s.busLog ++ [event],
          oracle := { s.oracle with turns := s.oracle.turns + 1 } })
        ⟨⟨htx, htx', hwf.1, hwf.2, hmem⟩, hcounts, hd hdma, hslave, hsegments,
          fun hi => absurd (hinit.symm.trans hi) nofun⟩ rfl rfl id id fun hm => ⟨hm, rfl⟩
      exact hnext.inv

theorem inv_setCallerByte (address : Nat) (b : Byte) (h : s.Inv) : (setCallerByte address b s).Inv := by
  obtain ⟨⟨htx, htx', hrx, hrx', hmem⟩, hrest⟩ := h.exceptNone.data
  have hnext := h.exceptNone.frame (t := setCallerByte address b s)
    ⟨⟨htx, htx', hrx, hrx', setCallerByte_wf s address b hmem⟩, hrest⟩ rfl rfl id id fun hm => ⟨hm, rfl⟩
  exact hnext.inv

/-- The schedule and what stands beside a word are no part of the invariant. -/
theorem State.Inv.scheduled (h : s.Inv) (rest : List Input) (beside : Issue) :
    ({ s with schedule := rest, issue := beside } : State).Inv :=
  have hdata := h.exceptNone.data
  State.InvExcept.inv (h.exceptNone.frame hdata rfl rfl id id fun hm => ⟨hm, rfl⟩)

end agents

/-- Settles O14: every agent's step keeps the invariant, each by the rule for its kind. -/
theorem stepKeepsTheInvariant : Obligations.StepKeepsTheInvariant := by
  intro s t h hstep
  obtain ⟨hf, ⟨-, rfl⟩ | ⟨x, rest, -, hx⟩⟩ := step_cases hstep
  · exact h
  have htaken : (taken s rest).Inv := h.scheduled rest s.issue
  rcases hx with ⟨w, b, i, -, hdecode, -, hexec⟩ | ⟨k, i, -, -, hinit, hexec⟩ | rfl | ⟨a, -, rfl⟩ | ⟨a, -, rfl⟩ |
    ⟨e, -, rfl⟩ | ⟨a, b, -, rfl⟩
  · exact (exec_run hexec).inv (fun hkey => by rw [decodeWord_isKeyRow hdecode] at hkey; cases hkey)
      (h.scheduled rest b) hf
  · exact (exec_run hexec).inv (fun _ => hinit) htaken hf
  · exact htaken
  · exact inv_advanceCaller htaken hf
  · exact inv_expireCaller htaken hf
  · exact inv_envStep e htaken
  · exact inv_setCallerByte a b htaken

/-! ### No step takes anything back (R34, R35, R49; 70_reset_and_hazards.md R363) -/

/-- The logs, the faults and the written cells of `t` are those of `s` and perhaps more. -/
structure Grows (s t : State) : Prop where
  cbLog : s.cbLog <+: t.cbLog
  busLog : s.busLog <+: t.busLog
  cmdLog : s.cmdLog <+: t.cmdLog
  resultLog : s.resultLog <+: t.resultLog
  bootCmdLog : t.bootCmdLog = s.bootCmdLog
  bootResultLog : t.bootResultLog = s.bootResultLog
  slaveErrors : s.slaveErrors <+: t.slaveErrors
  faults : s.faults <+: t.faults
  initialized : s.initialized = true → t.initialized = true
  txBuffer : ∀ i, (bufRead s.txBuffer i).isSome → (bufRead t.txBuffer i).isSome
  rxBuffer : ∀ i, (bufRead s.rxBuffer i).isSome → (bufRead t.rxBuffer i).isSome
  cfg : t.cfg = s.cfg

theorem Grows.refl (s : State) : Grows s s := by constructor <;> simp

theorem Grows.trans {s t u : State} (h : Grows s t) (k : Grows t u) : Grows s u where
  cbLog := h.cbLog.trans k.cbLog
  busLog := h.busLog.trans k.busLog
  cmdLog := h.cmdLog.trans k.cmdLog
  resultLog := h.resultLog.trans k.resultLog
  bootCmdLog := k.bootCmdLog.trans h.bootCmdLog
  bootResultLog := k.bootResultLog.trans h.bootResultLog
  slaveErrors := h.slaveErrors.trans k.slaveErrors
  faults := h.faults.trans k.faults
  initialized := k.initialized ∘ h.initialized
  txBuffer i := k.txBuffer i ∘ h.txBuffer i
  rxBuffer i := k.rxBuffer i ∘ h.rxBuffer i
  cfg := k.cfg.trans h.cfg

section grows
variable {s t : State} {a : Nat}

theorem EngineKeeps.grows (k : EngineKeeps s t) : Grows s t where
  cbLog := k.cbLog
  busLog := k.busLog ▸ List.prefix_refl _
  cmdLog := k.cmdLog
  resultLog := k.resultLog ▸ List.prefix_refl _
  bootCmdLog := k.bootCmdLog
  bootResultLog := k.bootResultLog
  slaveErrors := k.slaveErrors
  faults := k.faults
  initialized := k.initialized.trans
  txBuffer := k.written
  rxBuffer _ := k.rxBuffer ▸ id
  cfg := k.cfg

theorem ClockEffect.grows (h : ClockEffect s t) : Grows s t := by
  obtain ⟨o, rate, speed, hw, log, rfl, -⟩ := h
  constructor <;> simp

theorem CommandEffect.grows (h : CommandEffect s t) : Grows s t := h.clock.grows

theorem grows_raiseFault (r : Fault) (s : State) : Grows s (raiseFault r s) := by constructor <;> simp
theorem grows_setCaller (a : Nat) (c : Caller) (s : State) : Grows s (setCaller a c s) := by constructor <;> simp
theorem grows_setPc (a n : Nat) (s : State) : Grows s (setPc a n s) := grows_setCaller _ _ _
theorem grows_enterCall (a : Nat) (op : EntryPoint) (args : CallArgs) (s : State) : Grows s (enterCall a op args s) :=
  grows_setCaller _ _ _
theorem grows_returnCall (a : Nat) (op : EntryPoint) (kind : ErrorKind) (s : State) :
    Grows s (returnCall a op kind s) := by constructor <;> simp
theorem grows_acquire (a : Nat) (s : State) : Grows s (acquire a s) := by constructor <;> simp
theorem grows_release (s : State) : Grows s (release s) := by constructor <;> simp
theorem grows_initState (s : State) : Grows s (initState s) := by constructor <;> simp [initState]
theorem grows_setCallerByte (address : Nat) (b : Byte) (s : State) : Grows s (setCallerByte address b s) := by
  constructor <;> simp

/-! A caller's sub-steps. -/

theorem grows_transferFill (a : Nat) (addr7 : Addr7) (msgs : List Message) (s : State) :
    Grows s (transferFill a addr7 msgs s) := by
  unfold transferFill
  split
  · exact (grows_release s).trans (grows_returnCall _ _ _ _)
  · rename_i tx rxLen dest _
    have hfilled : Grows s { s with
        txBuffer := bufWriteList s.txBuffer 0 tx, txCount := tx.length, rxCount := rxLen, readDest := dest,
        deviceAddress := quickAddress addr7 msgs tx.length rxLen } :=
      { Grows.refl s with txBuffer := bufWriteList_isSome s.txBuffer 0 tx }
    exact hfilled.trans (grows_setPc a 4 _)

theorem grows_transferArm (a : Nat) (s : State) : Grows s (transferArm a s) := by
  have hstart : Grows s { s with completion := false, masterState := .start } := by constructor <;> simp
  exact (hstart.trans (effect_arm s).grows).trans (grows_setPc a 5 _)

theorem grows_transferWake (a : Nat) (s : State) : Grows s (transferWake a s) := by
  have hconsumed : Grows s { s with completion := false } := by constructor <;> simp
  unfold transferWake
  split
  · exact hconsumed.trans (grows_setPc a 6 _)
  · exact .refl s

theorem grows_transferExpire (a : Nat) (s : State) : Grows s (transferExpire a s) := by
  have hidle : Grows s { s with masterState := .idle, errorCode := .timeout } := by constructor <;> simp
  unfold transferExpire
  split
  · exact .refl s
  · exact (hidle.trans (effect_timeoutPath s).grows).trans (grows_setPc a 6 _)

theorem grows_transferCopyOut (a : Nat) (s : State) : Grows s (transferCopyOut a s) := by
  obtain ⟨mem, faults, -, hfaults, hcases⟩ := transferCopyOut_cases a s
  have hcopied : Grows s { s with callerMem := mem, faults := faults } := by
    rcases hfaults with rfl | rfl <;> constructor <;> simp
  rcases hcases with heq | heq <;> rw [heq]
  · exact hcopied.trans (grows_setPc a 7 _)
  · exact hcopied

theorem grows_transferReturn (a : Nat) (s : State) : Grows s (transferReturn a s) := by
  have hforgot : Grows s { s with readDest := none } := by constructor <;> simp
  exact (hforgot.trans (grows_release _)).trans (grows_returnCall _ _ _ _)

theorem grows_registerBody (a : Nat) (cfg : SlaveConfig) (s : State) : Grows s (registerBody a cfg s) := by
  have hconfig : Grows s { s with slaveConfig := some cfg } := by constructor <;> simp
  rcases registerBody_cases a cfg s with heq | ⟨u, heffect, heq⟩ <;> rw [heq]
  · exact (grows_release s).trans (grows_returnCall _ _ _ _)
  · have hstart : Grows u { u with slaveState := .start } := by constructor <;> simp
    exact (((hconfig.trans heffect.grows).trans hstart).trans (grows_release _)).trans (grows_returnCall _ _ _ _)

theorem grows_unregisterBody (a : Nat) (s : State) : Grows s (unregisterBody a s) := by
  rcases unregisterBody_cases a s with ⟨kind, heq⟩ | ⟨u, heffect, heq⟩ <;> rw [heq]
  · exact (grows_release s).trans (grows_returnCall _ _ _ _)
  · have hidle : Grows u { u with slaveState := .idle, slaveConfig := none } := by constructor <;> simp
    exact ((heffect.grows.trans hidle).trans (grows_release _)).trans (grows_returnCall _ _ _ _)

theorem grows_advanceCaller (a : Nat) (s : State) : Grows s (advanceCaller a s) := by
  rcases advanceCaller_cases a s with ⟨op, -, -, -, heq⟩ | ⟨-, htransfer⟩ | ⟨cfg, -, -, -, heq⟩ | ⟨-, -, heq⟩ | heq
  · exact heq ▸ grows_acquire a s
  · rcases htransfer with ⟨addr7, msgs, -, -, heq⟩ | ⟨-, heq⟩ | ⟨-, heq⟩ | ⟨-, heq⟩ | ⟨-, heq⟩ <;> rw [heq]
    exacts [grows_transferFill a addr7 msgs s, grows_transferArm a s, grows_transferWake a s, grows_transferCopyOut a s,
      grows_transferReturn a s]
  · exact heq ▸ grows_registerBody a cfg s
  · exact heq ▸ grows_unregisterBody a s
  · exact heq.symm ▸ .refl s

theorem grows_expireCaller (a : Nat) (s : State) : Grows s (expireCaller a s) := by
  rcases expireCaller_cases a s with ⟨op, -, -, -, heq⟩ | ⟨-, -, heq⟩ | heq <;> rw [heq]
  · rcases lockExpire_cases s a op with ⟨-, heq⟩ | ⟨-, heq⟩ <;> rw [heq]
    · exact .refl s
    · exact grows_returnCall _ _ _ _
  · exact grows_transferExpire a s
  · exact .refl s

theorem grows_envStep (e : EnvAction) (s : State) : Grows s (envStep e s) := by
  rcases envStep_cases e s with heq | ⟨-, henabled, heq⟩ <;> rw [heq]
  · exact .refl s
  · rcases envEffect_cases e s henabled with heq | ⟨hw, event, buf, heq, -, hbuf⟩ <;> rw [heq]
    · exact grows_raiseFault _ s
    · have hwritten : ∀ i, (bufRead s.rxBuffer i).isSome → (bufRead buf i).isSome := by
        rcases hbuf with rfl | ⟨j, b, rfl⟩
        · exact fun _ h => h
        · exact bufWrite_isSome s.rxBuffer j b
      exact { Grows.refl s with busLog := List.prefix_append _ _, rxBuffer := hwritten }

end grows

/-- What `Obligations.StepTakesNothingBack` says of one step. -/
def TakesNothingBack (s t : State) : Prop :=
  s.cbLog <+: t.cbLog ∧ s.busLog <+: t.busLog ∧
  s.bootCmdLog ++ s.cmdLog <+: t.bootCmdLog ++ t.cmdLog ∧
  s.bootResultLog ++ s.resultLog <+: t.bootResultLog ++ t.resultLog ∧
  (s.initialized = true ∨ t.initialized = false →
    s.cmdLog <+: t.cmdLog ∧ s.resultLog <+: t.resultLog ∧
    t.bootCmdLog = s.bootCmdLog ∧ t.bootResultLog = s.bootResultLog) ∧
  s.slaveErrors <+: t.slaveErrors ∧ s.faults <+: t.faults ∧
  (s.initialized = true → t.initialized = true) ∧
  (∀ i, (bufRead s.txBuffer i).isSome → (bufRead t.txBuffer i).isSome) ∧
  (∀ i, (bufRead s.rxBuffer i).isSome → (bufRead t.rxBuffer i).isSome) ∧
  t.cfg = s.cfg

section
variable {s t : State}

theorem Grows.takesNothingBack (g : Grows s t) : TakesNothingBack s t :=
  ⟨g.cbLog, g.busLog, by rw [g.bootCmdLog]; exact (List.prefix_append_right_inj _).2 g.cmdLog,
    by rw [g.bootResultLog]; exact (List.prefix_append_right_inj _).2 g.resultLog,
    fun _ => ⟨g.cmdLog, g.resultLog, g.bootCmdLog, g.bootResultLog⟩, g.slaveErrors, g.faults, g.initialized, g.txBuffer,
    g.rxBuffer, g.cfg⟩

/-- Nor does emptying the two logs into the boot logs, in the step that ends INIT (R53). -/
theorem Grows.takesNothingBack_startLogs (g : Grows s t) (hs : s.initialized = false) (ht : t.initialized = true) :
    TakesNothingBack s (startLogs t) := by
  refine ⟨g.cbLog, g.busLog, ?_, ?_, fun h => ?_, g.slaveErrors, g.faults, g.initialized, g.txBuffer, g.rxBuffer, g.cfg⟩
  · rw [startLogs_bootCmdLog, startLogs_cmdLog, List.append_nil, g.bootCmdLog]
    exact (List.prefix_append_right_inj _).2 g.cmdLog
  · rw [startLogs_bootResultLog, startLogs_resultLog, List.append_nil, g.bootResultLog]
    exact (List.prefix_append_right_inj _).2 g.resultLog
  · rcases h with h | h
    · rw [hs] at h; cases h
    · exact absurd (ht.symm.trans h) nofun

theorem CallRun.takesNothingBack {a : Nat} (hrun : CallRun s a t) : TakesNothingBack s t := by
  cases hrun with
  | busy => exact (Grows.refl s).takesNothingBack
  | faults op args r _ => exact ((grows_enterCall a op args s).trans (grows_raiseFault r _)).takesNothingBack
  | returns op args kind u _ heffect =>
    exact (((grows_enterCall a op args s).trans heffect.grows).trans (grows_returnCall a op kind u)).takesNothingBack
  | locks op args _ _ _ => exact ((grows_enterCall a op args s).trans (grows_acquire a _)).takesNothingBack
  | bringsUp u v _ hinit hclock henable =>
    have hup : Grows v { v with initialized := true } := { Grows.refl v with initialized := fun _ => rfl }
    have hreset : Grows s v :=
      (((grows_enterCall a .init .none s).trans hclock.grows).trans (grows_initState u)).trans henable.grows
    exact ((hreset.trans hup).trans (grows_returnCall a .init .ok _)).takesNothingBack_startLogs hinit rfl

theorem ExecRun.takesNothingBack {i : Instr} (hrun : ExecRun i s t) : TakesNothingBack s t := by
  cases hrun with
  | still => exact (Grows.refl s).takesNothingBack
  | call hcall => exact hcall.takesNothingBack
  | command heffect => exact heffect.grows.takesNothingBack
  | interrupt _ => exact (keeps_dispatchIrq s).grows.takesNothingBack
  | masterRow p _ _ hp _ => exact (keeps_rows p (List.mem_append_left _ hp) s).grows.takesNothingBack
  | slaveRow p _ _ hp _ _ => exact (keeps_rows p (List.mem_append_right _ hp) s).grows.takesNothingBack

end

/-- Settles O58: every agent's step only appends, but for a successful INIT, which moves two logs behind the boot
logs. -/
theorem stepTakesNothingBack : Obligations.StepTakesNothingBack := by
  intro s t hstep
  show TakesNothingBack s t
  obtain ⟨-, ⟨-, rfl⟩ | ⟨x, rest, -, hx⟩⟩ := step_cases hstep
  · exact (Grows.refl t).takesNothingBack
  rcases hx with ⟨w, b, i, -, -, -, hexec⟩ | ⟨k, i, -, -, -, hexec⟩ | rfl | ⟨a, -, rfl⟩ | ⟨a, -, rfl⟩ | ⟨e, -, rfl⟩ |
    ⟨a, b, -, rfl⟩
  · exact (exec_run hexec).takesNothingBack
  · exact (exec_run hexec).takesNothingBack
  · exact (Grows.refl s).takesNothingBack
  · exact (grows_advanceCaller a (taken s rest)).takesNothingBack
  · exact (grows_expireCaller a (taken s rest)).takesNothingBack
  · exact (grows_envStep e (taken s rest)).takesNothingBack
  · exact (grows_setCallerByte a b (taken s rest)).takesNothingBack

/-! ### Odd operands and misplaced calls (R36, R42; notes/assumptions/7.md, 8.md, 10.md, 13.md) -/

section freeCaller
variable {s : State} (h : callerFree s)
include h

theorem callerBusy_of_free : callerBusy s s.issue.caller = false := (callerBusy_eq_false_iff s _).2 (.inl h)

/-- A caller in no operation enters one at its sub-step 1, having interrupted none. -/
theorem enterCall_of_free (op : EntryPoint) (args : CallArgs) :
    enterCall s.issue.caller op args s = setCaller s.issue.caller (inStep op 1 args) s := by
  rw [enterCall, callFrame_free h]; rfl

theorem raiseFault_enterCall_of_free (op : EntryPoint) (args : CallArgs) (r : Fault) :
    raiseFault r (enterCall s.issue.caller op args s) =
      setCaller s.issue.caller (inStep op 1 args) { s with faults := s.faults ++ [r] } := by
  rw [enterCall_of_free h]; rfl

/-- The checks before an entry point's own body stop it before INIT (60_exceptions.md R323). -/
theorem checks_stop (hinit : s.initialized = false) (op : EntryPoint) (args : CallArgs)
    (body : Host.Outcome State Fault Refusal) :
    (if callerBusy s s.issue.caller then .next s
      else if (enterCall s.issue.caller op args s).initialized = false then
        .next (raiseFault .notInitialized (enterCall s.issue.caller op args s))
      else body) =
      .next (setCaller s.issue.caller (inStep op 1 args) { s with faults := s.faults ++ [.notInitialized] }) := by
  rw [if_neg (Bool.eq_false_iff.1 (callerBusy_of_free h)), enterCall_initialized, if_pos hinit,
    raiseFault_enterCall_of_free h]

/-- After it a TRANSFER asks for the lock (42_master_caller.md R192). -/
theorem exec_transfer_of_free (hinit : s.initialized = true) (addr7 : Addr7) (n : BitVec 16) :
    exec (.transfer addr7 n) s =
      .next (acquire s.issue.caller (enterCall s.issue.caller .transfer
        (.transfer addr7 (transferMessages n s.issue.msgs)) s)) := by
  have hinit' : ¬ s.initialized = false := by simp [hinit]
  exact (if_neg (Bool.eq_false_iff.1 (callerBusy_of_free h))).trans (if_neg hinit')

/-- With the lock free it takes it and goes to sub-step 2 (R190). -/
theorem acquire_enterCall_lock_free (hlock : s.lock = .free) (op : EntryPoint) (args : CallArgs) :
    acquire s.issue.caller (enterCall s.issue.caller op args s) =
      setCaller s.issue.caller (inStep op 2 args) { s with lock := .held s.issue.caller } := by
  rcases acquire_cases (enterCall s.issue.caller op args s) s.issue.caller with ⟨-, heq⟩ | ⟨⟨b, hb⟩, -⟩
  · refine heq.trans ((setPc_enterCall { s with lock := .held s.issue.caller } _ op args 2).trans ?_)
    rw [callFrame_free (show (getCaller { s with lock := .held s.issue.caller } s.issue.caller).op = none from h)]
    rfl
  · rw [enterCall_lock, hlock] at hb; cases hb

/-- With it held, even by itself, it waits at sub-step 1 (R190). -/
theorem acquire_enterCall_lock_held (hlock : s.lock ≠ .free) (op : EntryPoint) (args : CallArgs) :
    acquire s.issue.caller (enterCall s.issue.caller op args s) = setCaller s.issue.caller (inStep op 1 args) s := by
  rcases acquire_cases (enterCall s.issue.caller op args s) s.issue.caller with ⟨hfree, -⟩ | ⟨-, heq⟩
  · exact absurd hfree hlock
  · rw [heq, enterCall_of_free h]

end freeCaller

/-- Settles O18: above 256 the length is the free one of log 7, and the messages are those of log 13. -/
theorem commandEdgesTheModelChose : Obligations.CommandEdgesTheModelChose := by
  intro s n addr7
  refine ⟨fun _ => ⟨dmaLength n, dmaLength_le n, ?_, rfl, rfl⟩, fun hfree hinit _ => ?_, fun htimeout => ?_⟩
  · rintro rfl; rfl
  · refine ⟨transferMessages n s.issue.msgs, transferMessages_length n _, fun hlock => ?_, fun hlock => ?_⟩ <;>
      rw [exec_transfer_of_free hfree hinit]
    · rw [acquire_enterCall_lock_free hfree hlock]
    · rw [acquire_enterCall_lock_held hfree hlock]
  · simp only [exec, execHwSetTimeout, htimeout]

/-- Settles O26: every entry point but INIT stops at its second check before INIT, and INIT at its own after it. -/
theorem misplacedEntryPointsFault : Obligations.MisplacedEntryPointsFault := by
  intro s addr10 isNull cls addr7 n hfree
  refine ⟨fun hinit => ?_, fun hinit => ⟨?_, ?_, ?_, ?_⟩⟩
  · have hdouble : exec .init s = .next (raiseFault .doubleInit (enterCall s.issue.caller .init .none s)) :=
      (if_neg (Bool.eq_false_iff.1 (callerBusy_of_free hfree))).trans (if_pos hinit)
    rw [hdouble, raiseFault_enterCall_of_free hfree]
  · exact checks_stop hfree hinit .configure _ _
  · exact checks_stop hfree hinit .transfer _ _
  · exact checks_stop hfree hinit .slaveRegister _ _
  · exact checks_stop hfree hinit .slaveUnregister _ _

end Sys2Proof.Machine

/-! PROOFS. The encoding's statements (30_encoding.md): operation words decode and encode back, every other word is
refused, and a trigger key selects its rows. -/

namespace Sys2Proof

/-! ### A packed field is read as its parts, and only it is (R108, R110, R111) -/

/-- A field is packed of two parts exactly when these are its upper and its lower bits. -/
theorem eq_append_iff {m n : Nat} {a : BitVec (m + n)} {x : BitVec m} {y : BitVec n} :
    a = x ++ y ↔ a.extractLsb' n m = x ∧ a.extractLsb' 0 n = y := by
  constructor
  · rintro rfl; exact ⟨extract_append_left x y, extract_append_right x y⟩
  · rintro ⟨rfl, rfl⟩; exact BitVec.extractLsb'_append_extractLsb'.symm

theorem eq_ofBool_iff {x : BitVec 1} {b : Bool} : x = BitVec.ofBool b ↔ bitOf x = b := by
  constructor
  · rintro rfl; exact bitOf_ofBool b
  · rintro rfl; exact (ofBool_bitOf x).symm

section words
variable {w : OpWord} {op : BitVec 8}

theorem eq_opcode_append_iff {a24 : BitVec 24} : w = op ++ a24 ↔ OpWord.opcode w = op ∧ OpWord.a24 w = a24 :=
  eq_append_iff (m := 8) (n := 24)

theorem eq_packWord_iff {a8 : BitVec 8} {a16 : BitVec 16} :
    w = packWord op a8 a16 ↔ OpWord.opcode w = op ∧ OpWord.a8 w = a8 ∧ OpWord.a16 w = a16 := by
  constructor
  · rintro rfl; simp
  · rintro ⟨rfl, rfl, rfl⟩; exact (packWord_fields w).symm

theorem a24_eq_zero_iff : OpWord.a24 w = 0#24 ↔ OpWord.a8 w = 0#8 ∧ OpWord.a16 w = 0#16 := by
  rw [a8_eq, a16_eq]; exact eq_append_iff (x := 0#8) (y := 0#16)

theorem opcode_eq_of_toNat {n : Nat} (h : (OpWord.opcode w).toNat = n) : OpWord.opcode w = BitVec.ofNat 8 n := by
  subst h; simp

/-- The whole word of HW_SET_SCL. -/
theorem eq_sclWord_iff {hi lo : BitVec 12} :
    w = 0x1E#8 ++ (hi ++ lo) ↔
      OpWord.opcode w = 0x1E#8 ∧ (OpWord.a24 w).extractLsb' 12 12 = hi ∧ (OpWord.a24 w).extractLsb' 0 12 = lo :=
  eq_opcode_append_iff.trans (and_congr_right' (eq_append_iff (m := 12) (n := 12)))

end words

section arguments
variable {a8 : BitVec 8} {a16 : BitVec 16} {a24 : BitVec 24} {b : Bool} {addr7 : Addr7}

/-- The `a8` of CONFIGURE. -/
theorem eq_classByte_iff {cls : BitVec 4} :
    a8 = 0#3 ++ BitVec.ofBool b ++ cls ↔
      a8.extractLsb' 5 3 = 0#3 ∧ bitOf (a8.extractLsb' 4 1) = b ∧ a8.extractLsb' 0 4 = cls := by
  rw [eq_append_iff (m := 4) (n := 4), eq_append_iff (m := 3) (n := 1), eq_ofBool_iff, and_assoc,
    extract_extract a8 4 4 1 3 (by decide), extract_extract a8 4 4 0 1 (by decide)]

/-- The `a8` of TRANSFER. -/
theorem eq_zeroAddrByte_iff : a8 = 0#1 ++ addr7 ↔ a8.extractLsb' 7 1 = 0#1 ∧ a8.extractLsb' 0 7 = addr7 :=
  eq_append_iff (m := 1) (n := 7)

/-- The `a8` of SLAVE_REGISTER and of HW_SET_SLAVE_ADDR. -/
theorem eq_bitAddrByte_iff :
    a8 = BitVec.ofBool b ++ addr7 ↔ bitOf (a8.extractLsb' 7 1) = b ∧ a8.extractLsb' 0 7 = addr7 :=
  (eq_append_iff (m := 1) (n := 7)).trans (and_congr_left' eq_ofBool_iff)

theorem eq_packBit_iff : a8 = packBit b ↔ a8.extractLsb' 1 7 = 0#7 ∧ bitOf (a8.extractLsb' 0 1) = b :=
  (eq_append_iff (m := 7) (n := 1)).trans (and_congr_right' eq_ofBool_iff)

/-- The `a16` of SLAVE_REGISTER. -/
theorem eq_zeroBit_iff :
    a16 = 0#15 ++ BitVec.ofBool b ↔ a16.extractLsb' 1 15 = 0#15 ∧ bitOf (a16.extractLsb' 0 1) = b :=
  (eq_append_iff (m := 15) (n := 1)).trans (and_congr_right' eq_ofBool_iff)

/-- The `a16` of HW_ACK_STATUS. -/
theorem eq_zeroByte_iff {m : Byte} : a16 = 0#8 ++ m ↔ a16.extractLsb' 8 8 = 0#8 ∧ a16.extractLsb' 0 8 = m :=
  eq_append_iff (m := 8) (n := 8)

theorem eq_packBaud_iff {hold : BitVec 5} {div : BitVec 9} :
    a24 = packBaud b hold div ↔
      bitOf (a24.extractLsb' 23 1) = b ∧ a24.extractLsb' 18 5 = hold ∧ a24.extractLsb' 9 9 = div ∧
        a24.extractLsb' 0 9 = 0#9 := by
  rw [packBaud, eq_append_iff (m := 15) (n := 9), eq_append_iff (m := 6) (n := 9), eq_append_iff (m := 1) (n := 5),
    eq_ofBool_iff, and_assoc, and_assoc, extract_extract a24 9 15 0 9 (by decide),
    extract_extract a24 9 15 9 6 (by decide), extract_extract a24 18 6 5 1 (by decide),
    extract_extract a24 18 6 0 5 (by decide)]

end arguments

/-! ### Operation words (R108 to R113) -/

theorem whenZero_eq_ok_iff {zero : Bool} {i j : Instr} : whenZero zero j = .ok i ↔ zero = true ∧ j = i := by
  cases zero <;> simp [whenZero]

/-- The word of an instruction has its row's opcode, zeros where the row names no bit, and the operands, which is what
the decoder asks for. -/
theorem decodeWord_of_eq_encodeWord {w : OpWord} {i : Instr} (hkey : i.isKeyRow = false) (h : w = encodeWord i) :
    decodeWord w = .ok i := by
  cases i <;> cases hkey
  all_goals
    simp only [encodeWord, eq_packWord_iff, eq_opcode_append_iff, eq_sclWord_iff, eq_classByte_iff, eq_zeroAddrByte_iff,
      eq_bitAddrByte_iff, eq_packBit_iff, eq_zeroBit_iff, eq_zeroByte_iff, eq_packBaud_iff] at h
    simp [decodeWord, whenZero, a24_eq_zero_iff, h]

/-- What the decoder has asked for leaves no bit of the word open. -/
theorem eq_encodeWord_of_decodeWord {w : OpWord} {i : Instr} (h : decodeWord w = .ok i) : w = encodeWord i := by
  unfold decodeWord at h
  dsimp only at h
  split at h <;> rename_i hop
  case h_34 => cases h
  case h_21 => cases h; exact eq_sclWord_iff.2 ⟨opcode_eq_of_toNat hop, rfl, rfl⟩
  all_goals
    obtain ⟨hzero, rfl⟩ := whenZero_eq_ok_iff.1 h
    simp only [beq_iff_eq, Bool.and_eq_true, a24_eq_zero_iff] at hzero
    simp only [encodeWord, eq_packWord_iff, eq_opcode_append_iff, eq_classByte_iff, eq_zeroAddrByte_iff,
      eq_bitAddrByte_iff, eq_packBit_iff, eq_zeroBit_iff, eq_zeroByte_iff, eq_packBaud_iff, opcode_eq_of_toNat hop,
      hzero, and_self]

/-- The decoder accepts exactly the words of the format A and C instructions, each as its own instruction. -/
theorem decodeWord_eq_ok_iff {w : OpWord} {i : Instr} :
    decodeWord w = .ok i ↔ i.isKeyRow = false ∧ w = encodeWord i :=
  ⟨fun h => ⟨Machine.decodeWord_isKeyRow h, eq_encodeWord_of_decodeWord h⟩,
    fun ⟨hkey, h⟩ => decodeWord_of_eq_encodeWord hkey h⟩

/-- Settles O3: the word is the one the decoder accepts as its instruction. -/
theorem decodedWordsEncodeBack : Obligations.DecodedWordsEncodeBack := by
  intro w i h
  obtain ⟨hkey, hw⟩ := decodeWord_eq_ok_iff.1 h
  exact ⟨hkey, hw.symm⟩

/-- The opcodes of R110 and R111. -/
theorem opcode_encodeWord_assigned {i : Instr} (hkey : i.isKeyRow = false) :
    (1 ≤ (OpWord.opcode (encodeWord i)).toNat ∧ (OpWord.opcode (encodeWord i)).toNat ≤ 6) ∨
      (0x10 ≤ (OpWord.opcode (encodeWord i)).toNat ∧ (OpWord.opcode (encodeWord i)).toNat ≤ 0x2A) := by
  cases i <;> cases hkey <;> simp [encodeWord]

/-- Settles O1, by evaluation. -/
theorem specWordsDecode : Obligations.SpecWordsDecode := by
  unfold Obligations.SpecWordsDecode
  decide

/-! ### Trigger keys (R106, R107) -/

/-- An instruction without an operation word is a row's of the table. -/
theorem rowOf?_of_isKeyRow {i : Instr} (hkey : i.isKeyRow = true) :
    ∃ r ∈ rowTable, rowOf? i = some r ∧ r.instr = i := by
  cases i <;> cases hkey <;> exact ⟨_, by decide, rfl, rfl⟩

theorem rowOf?_eq_none {i : Instr} (hkey : i.isKeyRow = false) : rowOf? i = none := by
  cases i <;> cases hkey <;> rfl

/-- A row's match value is a legal key that the row covers. -/
theorem keyMatch_covered : ∀ r ∈ rowTable, keyLegal r.keyMatch = true ∧ r.covers r.keyMatch = true := by decide

theorem instr_mem_decodeKey {r : Row} {k : KeyWord} (hr : r ∈ rowTable) (hlegal : keyLegal k = true)
    (hcovers : r.covers k = true) : r.instr ∈ decodeKey k := by
  rw [decodeKey, rowsOfKey, if_pos hlegal]
  exact List.mem_map_of_mem (List.mem_filter.2 ⟨hr, hcovers⟩)

/-- Settles O2: a word is decoded as its instruction, and a row covers the key that its instruction is encoded as. -/
theorem encodedInstructionsDecodeBack : Obligations.EncodedInstructionsDecodeBack := by
  intro i
  refine ⟨fun hkey => ?_, fun hkey => ?_⟩
  · have hword : encode i = .word (encodeWord i) := by rw [encode, rowOf?_eq_none hkey]
    rw [hword, decode, decodeWord_eq_ok_iff.2 ⟨hkey, rfl⟩]
    rfl
  · obtain ⟨r, hr, hrow, rfl⟩ := rowOf?_of_isKeyRow hkey
    obtain ⟨hlegal, hcovers⟩ := keyMatch_covered r hr
    have hkeyword : encode r.instr = .key r.keyMatch := by rw [encode, hrow]
    rw [hkeyword]
    exact instr_mem_decodeKey hr hlegal hcovers

theorem phaseOfCode_isSome_iff (c : BitVec 3) : (Phase.ofCode c).isSome = true ↔ c.toNat < 5 := by
  revert c; decide

/-- A key with a non-zero reserved field or a reserved state code has no row (R113). -/
theorem rowsOfKey_illegal {k : KeyWord} (h : k.extractLsb' 9 3 ≠ 0#3 ∨ 5 ≤ (k.extractLsb' 12 3).toNat) :
    rowsOfKey k = [] := by
  refine if_neg fun hlegal => ?_
  rw [keyLegal, Bool.and_eq_true, beq_iff_eq, phaseOfCode_isSome_iff] at hlegal
  exact h.elim (· hlegal.1) (Nat.not_le.2 hlegal.2)

end Sys2Proof

namespace Sys2Proof.Machine

/-! ### The step, where the next input is an instruction's -/

section instructionStep
variable {s : State} {rest : List Input} (hf : s.faults = [])
include hf

/-- A word that spells no operation is refused (60_exceptions.md R324). -/
theorem step_word_error {w : OpWord} {b : Issue} {e : Reject} (hs : s.schedule = .word w b :: rest)
    (h : decodeWord w = .error e) : step s = .refused .reservedEncoding := by
  rw [step, fetch_input hf hs, fetchInput, h]

/-- A word that decodes runs its instruction, or is no step where it may not be issued. -/
theorem step_word_ok {w : OpWord} {b : Issue} {i : Instr} (hs : s.schedule = .word w b :: rest)
    (h : decodeWord w = .ok i) :
    (wordEnabled w s = true → step s = exec i { taken s rest with issue := b }) ∧
    (wordEnabled w s = false → step s = .next (taken s rest)) := by
  have hfetch : fetch s =
      if wordEnabled w s then .run i { taken s rest with issue := b } else .agent (taken s rest) := by
    rw [fetch_input hf hs, fetchInput, h]; rfl
  exact ⟨fun he => by rw [step, hfetch, he]; rfl, fun he => by rw [step, hfetch, he]; rfl⟩

theorem step_key_some {k : KeyWord} {i : Instr} (hs : s.schedule = .key k :: rest)
    (h : selectRow k (taken s rest) = some i) (hinit : s.initialized = true) : step s = exec i (taken s rest) := by
  rw [step, fetch_input hf hs, fetchInput, h]
  simp only [hinit, if_true]

theorem step_key_none {k : KeyWord} (hs : s.schedule = .key k :: rest)
    (h : s.initialized = false ∨ selectRow k (taken s rest) = none) : step s = .next (taken s rest) := by
  refine step_agent hf hs ?_
  rw [fetchInput]
  cases hsel : selectRow k (taken s rest) with
  | none => rfl
  | some i =>
    obtain hinit | hnone := h
    · simp only [hinit, Bool.false_eq_true, if_false]
    · rw [hsel] at hnone; cases hnone

end instructionStep

theorem wordEnabled_iff {w : OpWord} {s : State} :
    wordEnabled w s = true ↔ s.initialized = true ∨ (OpWord.opcode w).toNat < 0x10 := by simp [wordEnabled]

/-- Settles O8: the words that may be issued are the entry points' and, after INIT, the commands'. -/
theorem stepRunsTheDecodedWord : Obligations.StepRunsTheDecodedWord := by
  intro s w b rest i hf hs hw
  obtain ⟨hrun, hskip⟩ := step_word_ok hf hs hw
  refine ⟨fun h => hrun (wordEnabled_iff.2 h), fun hinit hop => hskip (Bool.eq_false_iff.2 fun he => ?_)⟩
  rcases wordEnabled_iff.1 he with h | h
  · simp [hinit] at h
  · omega

/-- Settles O5: the decoder accepts no word but an instruction's. -/
theorem otherWordsAreRefused : Obligations.OtherWordsAreRefused := by
  intro s w b rest hf hs hother
  cases hw : decodeWord w with
  | ok i =>
    obtain ⟨hkey, heq⟩ := decodeWord_eq_ok_iff.1 hw
    exact absurd heq.symm (hother i hkey)
  | error e => exact step_word_error hf hs hw

/-- Settles O4: no instruction's word has such an opcode. -/
theorem reservedOpcodesAreRefused : Obligations.ReservedOpcodesAreRefused := by
  intro s w b rest hf hs hop
  refine otherWordsAreRefused s w b rest hf hs ?_
  rintro i hkey rfl
  have hassigned := opcode_encodeWord_assigned hkey
  omega

/-- No guard looks at the schedule. -/
theorem guardHolds_taken (g : Guard) (s : State) (rest : List Input) :
    guardHolds g (taken s rest) = guardHolds g s := by cases g <;> rfl

/-- The first row of a key whose guard holds is the one selected (30_encoding.md R107). -/
theorem selectRow_first {k : KeyWord} {s : State} {before after : List Row} {r : Row}
    (hrows : rowsOfKey k = before ++ r :: after) (hbefore : ∀ q ∈ before, guardHolds q.guard s = false)
    (hr : guardHolds r.guard s = true) : selectRow k s = some r.instr := by
  have hfind : (rowsOfKey k).find? (fun r => guardHolds r.guard s) = some r :=
    List.find?_eq_some_iff_append.2 ⟨hr, before, after, hrows, fun q hq => by rw [hbefore q hq]; rfl⟩
  rw [selectRow, hfind]
  rfl

theorem selectRow_eq_none {k : KeyWord} {s : State} (h : ∀ q ∈ rowsOfKey k, guardHolds q.guard s = false) :
    selectRow k s = none := by
  rw [selectRow, List.find?_eq_none.2 fun q hq => Bool.eq_false_iff.1 (h q hq)]
  rfl

/-- Settles O9: the row selected runs after INIT, and otherwise the key is no step. -/
theorem stepRunsTheSelectedRow : Obligations.StepRunsTheSelectedRow := by
  intro s k rest hf hs
  refine ⟨fun before after r hinit hrows hbefore hr => ?_, fun h => step_key_none hf hs (h.imp_right fun h => ?_)⟩
  · refine step_key_some hf hs (selectRow_first hrows (fun q hq => ?_) ?_) hinit
    · rw [guardHolds_taken, hbefore q hq]
    · rw [guardHolds_taken, hr]
  · exact selectRow_eq_none fun q hq => by rw [guardHolds_taken, h q hq]

/-- Settles O7: without a row there is none whose guard holds. -/
theorem illegalKeysFireNothing : Obligations.IllegalKeysFireNothing := by
  intro s k rest h
  have hrows := rowsOfKey_illegal h
  refine ⟨by rw [decodeKey, hrows]; rfl, fun hf hs => step_key_none hf hs (.inr (selectRow_eq_none ?_))⟩
  rw [hrows]
  exact List.forall_mem_nil _

/-! ### The rows of one event group exclude each other (R107) -/

/-- The pairs of rows that share an event group, the earlier row first. -/
def groupPairs : List (Row × Row) :=
  [(rowMDrStartQuick, rowMDrStartRead), (rowMDrStartQuick, rowMDrStartWrite), (rowMDrStartQuick, rowMDrWrite),
   (rowMDrStartRead, rowMDrStartWrite), (rowMDrStartRead, rowMDrWrite), (rowMDrStartWrite, rowMDrWrite),
   (rowMStallRead, rowMStallQuick),
   (rowMDmaWriteStop, rowMDmaWriteRestart), (rowMDmaWriteStop, rowMDmaRead), (rowMDmaWriteRestart, rowMDmaRead),
   (rowSAmTx, rowSAmRx), (rowSDrOverflow, rowSDrFill)]

theorem mem_groupPairs : ∀ r ∈ rowTable, ∀ q ∈ rowTable, r.role = q.role → r.group = q.group →
    r = q ∨ (r, q) ∈ groupPairs ∨ (q, r) ∈ groupPairs := by decide

/-- Two rows of a group want different states, different counts, or different directions. -/
theorem groupPairs_exclusive (snap : Snapshot) (s : State) : ∀ p ∈ groupPairs,
    rowFires p.1 snap s = true → rowFires p.2 snap s = true → False := by
  intro p hp h h'
  simp only [groupPairs, List.mem_cons, List.not_mem_nil, or_false] at hp
  rcases hp with rfl | rfl | rfl | rfl | rfl | rfl | rfl | rfl | rfl | rfl | rfl | rfl <;> simp_all

/-- Settles O6: two rows of one group are the same, or a pair of which only one fires. -/
theorem groupRowsAreExclusive : Obligations.GroupRowsAreExclusive := by
  intro snap s r hr q hq hrole hgroup hfires hfires'
  rcases mem_groupPairs r hr q hq hrole hgroup with heq | hpair | hpair
  · exact heq
  · exact (groupPairs_exclusive snap s _ hpair hfires hfires').elim
  · exact (groupPairs_exclusive snap s _ hpair hfires' hfires).elim

end Sys2Proof.Machine

/-! PROOFS. The statements of the primitive commands (40_hw_commands.md): what each writes to the register block, what
it reads, and the word it logs. -/

namespace Sys2Proof.Machine

/-! ### A command is a change of the register block and a log entry, or a reading and a log entry -/

section commands
variable {s : State} {i : Instr} {w : OpWord}

/-- A command that writes: the register block as it leaves it, its word logged, nothing else. -/
theorem exec_write (f : Hw → Hw) (hexec : exec i s = .next (logCmd i none (setHw f s))) (hword : encodeWord i = w) :
    exec i s = .next { s with hw := f s.hw, cmdLog := s.cmdLog ++ [plainCmd w] } := by
  rw [hexec, ← hword]; rfl

/-- A command that reads: its word and what it read logged, nothing else. -/
theorem exec_read {r : CmdResult} (hexec : exec i s = .next (logCmd i (some r) s)) (hword : encodeWord i = w) :
    exec i s = .next { s with cmdLog := s.cmdLog ++ [readCmd w r] } := by
  rw [hexec, ← hword]; rfl

end commands

/-- Settles O15: each of the four writes one control bit. -/
theorem busConditionCommands : Obligations.BusConditionCommands := fun _ =>
  ⟨exec_write (fun h => { h with start := true }) rfl rfl, exec_write (fun h => { h with stop := true }) rfl rfl,
    exec_write (fun h => { h with stallEn := true }) rfl rfl, exec_write (fun h => { h with stallEn := false }) rfl rfl⟩

/-! ### Data (R134, R148, R149) -/

/-- HW_READ_DATA records the byte the state gives (R149). -/
theorem exec_hwReadData (s : State) :
    exec .hwReadData s = .next { s with cmdLog := s.cmdLog ++ [readCmd 0x23000000#32 (.byte (dataByte s))] } :=
  exec_read rfl rfl

theorem dataByte_supplied {s : State} {b : Byte} (h : s.hw.dataIn = some b) : dataByte s = b := by
  rw [dataByte, h, Option.getD_some]

/-- Settles O16: without a supplied byte both reads give `dataByte s`, which a read does not change. -/
theorem dataCommands : Obligations.DataCommands := by
  intro s b
  refine ⟨exec_write (fun h => { h with dataOut := b }) rfl rfl, exec_write (fun h => { h with dataOut := b }) rfl rfl,
    fun hsupplied => ?_, fun _ => ⟨dataByte s, exec_hwReadData s, ?_⟩⟩
  · rw [exec_hwReadData, dataByte_supplied hsupplied]
  · have hagain := exec_hwReadData (hwReadData s)
    rw [dataByte_hwReadData] at hagain
    exact hagain

/-- Settles O17: a length of at most 256 is armed as it is. -/
theorem dmaArmCommands : Obligations.DmaArmCommands := by
  intro s n _ hn
  have hlen : dmaLength n = n.toNat := dmaLength_eq hn
  rw [← hlen]
  exact ⟨exec_write (armDma .tx (dmaLength n)) rfl rfl, exec_write (armDma .rx (dmaLength n)) rfl rfl⟩

/-- Settles O19: the fields HW_RESET writes are those of `resetHw`. -/
theorem nackLastAndControllerReset : Obligations.NackLastAndControllerReset := fun _ =>
  ⟨exec_write (fun h => { h with dmaNackLast := true }) rfl rfl, exec_write resetHw rfl rfl⟩

/-- Settles O20: the three write the flags alone. -/
theorem statusClearCommands : Obligations.StatusClearCommands := fun _ m =>
  ⟨exec_write (fun h => { h with flags := h.flags.clearStatus }) rfl rfl,
    exec_write (fun h => { h with flags := h.flags.clearDma }) rfl rfl,
    exec_write (fun h => { h with flags := h.flags.ack m }) rfl rfl⟩

/-! ### Status (R141, R150, R151, R156) -/

/-- The wait is exhausted exactly when the bus is busy, and otherwise ends at the first test (R141). -/
theorem spinResult_eq (bound : Nat) (busy : Bool) :
    spinResult bound busy = if busy then .exhausted else .free 0 := by
  cases busy
  case true => rfl
  case false => exact spinResult_free bound

/-- Settles O21: the snapshot holds the flags bit by bit, and the bus does not change during a wait. -/
theorem statusReadCommands : Obligations.StatusReadCommands := by
  intro s
  refine ⟨⟨snapshot s, exec_read rfl rfl, ?_⟩, exec_read rfl rfl, exec_read rfl rfl, ?_⟩
  · simp [snapshot, BitVec.getLsbD_eq_getElem]
  · rw [← spinResult_eq s.cfg.busFreeSpinBound]
    exact exec_read rfl rfl

/-! ### Configuration (R142 to R147, R153) -/

/-- HW_SET_TIMEOUT writes the parameter's thresholds and the enable, and logs them beside its word (R142). -/
theorem exec_hwSetTimeout {s : State} {t : Thresholds} (h : s.cfg.hwTimeout = some t) :
    exec .hwSetTimeout s = .next (hwSetTimeout t s) := by
  simp only [exec, execHwSetTimeout, h]

/-- Settles O22: the SCL counts are HW_SET_SCL's alone (notes/assumptions/16.md). -/
theorem configurationCommands : Obligations.ConfigurationCommands := fun _ b hold div hi lo a _ =>
  ⟨exec_write (fun h => { h with div := div, hold := hold, fmPlus := b }) rfl rfl,
    exec_write (fun h => { h with sclHigh := hi, sclLow := lo }) rfl rfl,
    exec_write (fun h => { h with matchEn := b, slaveAddr := if b then some a else none }) rfl rfl,
    exec_write (fun h => { h with matchIrqEn := b }) rfl rfl,
    exec_write (fun h => { h with ackMode := if b then .nack else .ack }) rfl rfl,
    exec_write (fun h => { h with irqEn := b }) rfl rfl,
    exec_hwSetTimeout⟩

/-! ### The clock (R154, R155) -/

/-- The answer used up is that of the oracle, whatever is in the register block. -/
theorem usedClockAnswer_setHw (f : Hw → Hw) (s : State) :
    usedClockAnswer (setHw f s) = setHw f (usedClockAnswer s) := by
  unfold usedClockAnswer
  rw [setHw_oracle]
  split <;> rfl

/-- CLK_ENABLE logs the clock's answer and, where it is `ok`, sets `hw.clkOn` (R154). -/
theorem exec_clkEnable_ok {s : State} (hok : clockAnswer s = true) :
    exec .clkEnable s =
      .next (logCmd .clkEnable (some (.clock true)) (setHw (fun h => { h with clkOn := true }) (usedClockAnswer s))) := by
  have hexec : exec .clkEnable s = .next (clkEnable s) := rfl
  rw [hexec, clkEnable, hok, if_pos rfl, usedClockAnswer_setHw]

theorem exec_clkEnable_failed {s : State} (hfailed : clockAnswer s = false) :
    exec .clkEnable s = .next (logCmd .clkEnable (some (.clock false)) (usedClockAnswer s)) := by
  have hexec : exec .clkEnable s = .next (clkEnable s) := rfl
  rw [hexec, clkEnable, hfailed, if_neg Bool.false_ne_true]

/-- CLK_GET_RATE logs the clock's answer (R155). -/
theorem exec_clkGetRate (s : State) :
    exec .clkGetRate s = .next (logCmd .clkGetRate (some (.rate (rateAnswer s))) (usedRateAnswer s)) := rfl

/-- Settles O23: beside the log, and `hw.clkOn` for an `ok`, only the oracle changes, by the answer used up. -/
theorem clockCommands : Obligations.ClockCommands := by
  intro s
  refine ⟨fun hok => ?_, fun hfailed => ?_, ?_⟩
  · rw [exec_clkEnable_ok hok, usedClockAnswer_eq]; rfl
  · rw [exec_clkEnable_failed hfailed, usedClockAnswer_eq]; rfl
  · rw [exec_clkGetRate, usedRateAnswer_eq]; rfl

end Sys2Proof.Machine

/-! PROOFS. The statements of the baud calculator and of the controller lifecycle (41_baud_lifecycle.md): the fields
for each frequency, and what INIT and CONFIGURE leave. -/

namespace Sys2Proof.Machine

/-! ### The baud calculator (R170 to R174) -/

theorem le_clamp {v lo hi : Nat} (h : lo ≤ hi) : lo ≤ clamp v lo hi := le_min (le_max_right v lo) h

theorem clamp_le (v lo hi : Nat) : clamp v lo hi ≤ hi := min_le_right _ _

theorem holdTier_toNat (src : Nat) :
    (holdTier src).toNat = if 40000000 ≤ src then 17 else if 20000000 ≤ src then 9 else 7 := by
  rw [holdTier, apply_ite BitVec.toNat, apply_ite BitVec.toNat]; rfl

/-- No frequency but the three has fields (R174). -/
theorem baud_refused {src f : Nat} (h1 : f ≠ 100000) (h2 : f ≠ 400000) (h3 : f ≠ 1000000) :
    baud src f = none := by
  rw [baud, if_neg (not_or.2 ⟨h1, h2⟩), if_neg h3]

/-- The fields of the standard and fast modes (R171, R173). -/
theorem baud_standard {src f : Nat} (h : f = 100000 ∨ f = 400000) :
    ∃ b, baud src f = some b ∧ b.div.toNat = clamp (rawDivider src f) 8 511 ∧ b.fmPlus = false ∧
      (b.sclHigh, b.sclLow) = Config.stdSclFields b.div ∧ b.hold = holdTier src := by
  have hdiv : clamp (rawDivider src f) 8 511 < 2 ^ 9 := Nat.lt_succ_of_le (clamp_le _ 8 511)
  exact ⟨_, if_pos h, Nat.mod_eq_of_lt hdiv, rfl, rfl, rfl⟩

/-- The fields of fast mode plus: with a divider of at least 5 and at most 255, neither SCL count wraps (R172, R173). -/
theorem baud_fastPlus (src : Nat) :
    ∃ b, baud src 1000000 = some b ∧ b.div.toNat = clamp (rawDivider src 1000000) 5 255 ∧ b.fmPlus = true ∧
      b.sclHigh.toNat + 3 = b.div.toNat ∧ b.sclLow.toNat + 1 = b.div.toNat ∧ b.hold = holdTier src := by
  have hlow : 5 ≤ clamp (rawDivider src 1000000) 5 255 := le_clamp (by decide)
  have hhigh : clamp (rawDivider src 1000000) 5 255 ≤ 255 := clamp_le _ 5 255
  refine ⟨_, (if_neg (by decide)).trans (if_pos rfl), ?_, rfl, ?_, ?_, rfl⟩ <;>
    simp only [BitVec.toNat_ofNat] <;> omega

/-- Each of the three frequencies has fields. -/
theorem baud_accepted (src : Nat) {f : Nat} (h : f = 100000 ∨ f = 400000 ∨ f = 1000000) :
    ∃ b, baud src f = some b := by
  rcases or_assoc.2 h with hstd | rfl
  · exact (baud_standard hstd).imp fun _ => And.left
  · exact (baud_fastPlus src).imp fun _ => And.left

/-- Settles O57: each frequency takes its path of the calculator. -/
theorem baudFieldsAreInRange : Obligations.BaudFieldsAreInRange := by
  intro src f
  refine ⟨baud_refused, fun hf => ?_, ?_⟩
  · obtain ⟨b, hbaud, hdiv, hplus, hscl, hhold⟩ := baud_standard (src := src) hf
    exact ⟨b, hbaud, hdiv, hplus, hscl, hhold ▸ holdTier_toNat src⟩
  · rintro rfl
    obtain ⟨b, hbaud, hdiv, hplus, hhigh, hlow, hhold⟩ := baud_fastPlus src
    exact ⟨b, hbaud, hdiv, hplus, hhigh, hlow, hhold ▸ holdTier_toNat src⟩

/-! ### A call that returns in the step it was made in -/

section freeCaller
variable {s : State} (h : callerFree s)
include h

/-- The call leaves its result in the record and in the log, whatever it did to the rest of the state. -/
theorem returnCall_of_entered {t : State} {op : EntryPoint} {args : CallArgs}
    (hcallers : t.callers = (enterCall s.issue.caller op args s).callers) (kind : ErrorKind) :
    returnCall s.issue.caller op kind t =
      setCaller s.issue.caller (returned kind)
        { t with
          callers := s.callers
          resultLog := t.resultLog ++ [{ caller := s.issue.caller, op := op, kind := kind }] } := by
  have houter : (getCaller t s.issue.caller).outer = none := by
    rw [getCaller_congr hcallers, getCaller_enterCall, if_pos rfl, callFrame_free h]
  rw [returnCall_outermost _ _ _ _ houter]
  rw [enterCall_of_free h] at hcallers
  have hentered : inStep op 1 args ≠ Caller.idle := entered_ne_idle op 1 args none
  have hreturned : returned kind ≠ Caller.idle := returned_ne_idle kind
  show setCaller s.issue.caller (returned kind) _ = _
  simp [setCaller, hcallers, hentered, hreturned]

/-- After INIT the checks before an entry point's own body let the call pass. -/
theorem checks_pass (hinit : s.initialized = true) (op : EntryPoint) (args : CallArgs)
    (body : Host.Outcome State Fault Refusal) :
    (if callerBusy s s.issue.caller then .next s
      else if (enterCall s.issue.caller op args s).initialized = false then
        .next (raiseFault .notInitialized (enterCall s.issue.caller op args s))
      else body) = body := by
  rw [if_neg (Bool.eq_false_iff.1 (callerBusy_of_free h)), enterCall_initialized, hinit, if_neg (by decide)]

/-- Before INIT a call of INIT runs (R175). -/
theorem exec_init_of_free (hinit : s.initialized = false) :
    exec .init s = .next (bringUp s.issue.caller (enterCall s.issue.caller .init .none s)) := by
  have hinit' : ¬ s.initialized = true := by simp [hinit]
  exact (if_neg (Bool.eq_false_iff.1 (callerBusy_of_free h))).trans (if_neg hinit')

end freeCaller

/-! ### The commands of INIT and CONFIGURE -/

/-- CLK_ENABLE answered `ok` (R154). -/
theorem clkEnable_ok {s : State} (hok : clockAnswer s = true) :
    clkEnable s =
      { s with
        hw := { s.hw with clkOn := true }, cmdLog := s.cmdLog ++ [readCmd 0x28000000#32 (.clock true)],
        oracle := (usedClockAnswer s).oracle } :=
  Host.Outcome.next.inj ((clockCommands s).1 hok)

/-- CLK_ENABLE answered `error` (R154). -/
theorem clkEnable_failed {s : State} (hfailed : clockAnswer s = false) :
    clkEnable s =
      { s with
        cmdLog := s.cmdLog ++ [readCmd 0x28000000#32 (.clock false)], oracle := (usedClockAnswer s).oracle } :=
  Host.Outcome.next.inj ((clockCommands s).2.1 hfailed)

theorem clkGetRate_eq (s : State) :
    clkGetRate s =
      { s with
        cmdLog := s.cmdLog ++ [readCmd 0x29000000#32 (.rate (rateAnswer s))], oracle := (usedRateAnswer s).oracle } :=
  Host.Outcome.next.inj (clockCommands s).2.2

/-- The calculator's fields go to the register block, by HW_SET_BAUD and then HW_SET_SCL (R175, R177). -/
theorem programBaud_eq (b : BaudFields) (s : State) :
    programBaud b s =
      { s with
        hw := { s.hw with
          div := b.div, hold := b.hold, fmPlus := b.fmPlus, sclHigh := b.sclHigh, sclLow := b.sclLow },
        cmdLog := s.cmdLog ++
          [plainCmd (encodeWord (.hwSetBaud b.fmPlus b.hold b.div)),
           plainCmd (encodeWord (.hwSetScl b.sclHigh b.sclLow))] } := by
  simp [programBaud, hwSetScl, hwSetBaud, logCmd, setHw, plainCmd]

/-! ### INIT (R175, R176) -/

section oracle
variable {s t : State} (h : t.oracle = s.oracle)
include h

theorem clockAnswer_congr : clockAnswer t = clockAnswer s := by rw [clockAnswer, clockAnswer, h]

theorem rateAnswer_congr : rateAnswer t = rateAnswer s := by rw [rateAnswer, rateAnswer, h]

theorem usedClockAnswer_oracle_congr : (usedClockAnswer t).oracle = (usedClockAnswer s).oracle := by
  unfold usedClockAnswer
  rw [h]
  split <;> rfl

theorem usedRateAnswer_oracle_congr : (usedRateAnswer t).oracle = (usedRateAnswer s).oracle := by
  unfold usedRateAnswer
  rw [h]
  split <;> rfl

end oracle

/-- INIT's state once the clock is enabled and its rate read. -/
def clockRead (s : State) : State := { clkGetRate (clkEnable s) with sourceClock := rateAnswer (clkEnable s) }

/-- INIT's state once the fields `b` are programmed, the state reset and the interrupt enabled, before its return. -/
def broughtUp (b : BaudFields) (s : State) : State :=
  { hwIrqEnable true (initState { programBaud b s with bitrate := s.cfg.initialSpeed }) with initialized := true }

/-- The clock's answers are the same for the call as before it. -/
theorem clockRead_enterCall {s : State} (hok : clockAnswer s = true) (a : Nat) (op : EntryPoint) (args : CallArgs) :
    clockRead (enterCall a op args s) =
      { enterCall a op args s with
        sourceClock := rateAnswer (usedClockAnswer s), hw := { s.hw with clkOn := true },
        cmdLog := s.cmdLog ++
          [readCmd 0x28000000#32 (.clock true), readCmd 0x29000000#32 (.rate (rateAnswer (usedClockAnswer s)))],
        oracle := (usedRateAnswer (usedClockAnswer s)).oracle } := by
  have henable := clkEnable_ok (s := enterCall a op args s) ((clockAnswer_congr rfl).trans hok)
  have horacle : (clkEnable (enterCall a op args s)).oracle = (usedClockAnswer s).oracle := by
    rw [henable]; exact usedClockAnswer_oracle_congr rfl
  rw [clockRead, clkGetRate_eq, rateAnswer_congr horacle, usedRateAnswer_oracle_congr horacle, henable]
  simp

theorem broughtUp_eq (b : BaudFields) (s : State) :
    broughtUp b s =
      { s with
        bitrate := s.cfg.initialSpeed, masterState := .idle, slaveState := .idle, slaveConfig := none,
        readDest := none, lock := .free, completion := false, initialized := true,
        hw := { s.hw with
          irqEn := true, div := b.div, hold := b.hold, fmPlus := b.fmPlus, sclHigh := b.sclHigh,
          sclLow := b.sclLow, dmaDir := .none, dmaLen := 0, dmaCount := 0, dmaNackLast := false,
          dmaActive := false },
        cmdLog := s.cmdLog ++
          [plainCmd (encodeWord (.hwSetBaud b.fmPlus b.hold b.div)),
           plainCmd (encodeWord (.hwSetScl b.sclHigh b.sclLow)), plainCmd 0x27010000#32] } := by
  have hword : encodeWord (.hwIrqEnable true) = 0x27010000#32 := rfl
  rw [broughtUp, programBaud_eq]
  simp [initState, hwIrqEnable, logCmd, setHw, disarmDma, plainCmd, hword]

/-- INIT returns at a failed clock enable (R176). -/
theorem bringUp_clock_failed {s : State} (a : Nat) (hfailed : clockAnswer s = false) :
    bringUp a s = returnCall a .init .clockFailed (clkEnable s) := by
  rw [bringUp, hfailed, if_neg Bool.false_ne_true]

/-- It returns at a frequency without fields, once it has read the clock's rate (R176). -/
theorem bringUp_refused {s : State} (a : Nat) (hok : clockAnswer s = true)
    (hbaud : baud (clockRead s).sourceClock (clockRead s).cfg.initialSpeed = none) :
    bringUp a s = returnCall a .init .invalidConfig (clockRead s) := by
  rw [bringUp, hok, if_pos rfl]
  unfold initWithClock
  dsimp only [clockRead] at hbaud ⊢
  rw [hbaud]

/-- Otherwise it brings the controller up, returns `ok` and empties the logs (R175). -/
theorem bringUp_ok {s : State} (a : Nat) {b : BaudFields} (hok : clockAnswer s = true)
    (hbaud : baud (clockRead s).sourceClock (clockRead s).cfg.initialSpeed = some b) :
    bringUp a s = startLogs (returnCall a .init .ok (broughtUp b (clockRead s))) := by
  rw [bringUp, hok, if_pos rfl]
  unfold initWithClock
  dsimp only [clockRead] at hbaud ⊢
  rw [hbaud]
  rfl

/-- Settles O24: with the clock answered `ok` and fields for the frequency, INIT takes all its steps. -/
theorem initBringsTheInstanceUp : Obligations.InitBringsTheInstanceUp := by
  rintro s _ b hfree hinit hok rfl hbaud
  let e := enterCall s.issue.caller .init .none s
  have hok' : clockAnswer e = true := (clockAnswer_congr rfl).trans hok
  have hread := clockRead_enterCall hok s.issue.caller .init .none
  have hbaud' : baud (clockRead e).sourceClock (clockRead e).cfg.initialSpeed = some b := by rw [hread]; exact hbaud
  have hcallers : (broughtUp b (clockRead e)).callers = e.callers := by rw [broughtUp_eq, hread]
  rw [exec_init_of_free hfree hinit, bringUp_ok _ hok' hbaud',
    returnCall_of_entered hfree hcallers, broughtUp_eq, hread]
  simp [startLogs, setCaller, enterCall]

/-- Settles O25: INIT returns where its clock or its calculator fails. -/
theorem failedInitLeavesTheInstanceDown : Obligations.FailedInitLeavesTheInstanceDown := by
  intro s rate hfree hinit
  let e := enterCall s.issue.caller .init .none s
  refine ⟨fun hfailed => ?_, ?_⟩
  · have hfailed' : clockAnswer e = false := (clockAnswer_congr rfl).trans hfailed
    have hused : (usedClockAnswer e).oracle = (usedClockAnswer s).oracle := usedClockAnswer_oracle_congr rfl
    rw [exec_init_of_free hfree hinit, bringUp_clock_failed _ hfailed',
      returnCall_of_entered hfree (effect_clkEnable e).callers, clkEnable_failed hfailed', hused]
    rfl
  · rintro hok rfl h1 h2 h3
    have hok' : clockAnswer e = true := (clockAnswer_congr rfl).trans hok
    have hread := clockRead_enterCall hok s.issue.caller .init .none
    have hbaud : baud (clockRead e).sourceClock (clockRead e).cfg.initialSpeed = none := by
      rw [hread]; exact baud_refused h1 h2 h3
    have hcallers : (clockRead e).callers = e.callers := by rw [hread]
    rw [exec_init_of_free hfree hinit, bringUp_refused _ hok' hbaud,
      returnCall_of_entered hfree hcallers, hread]
    rfl

/-! ### CONFIGURE (R177) -/

theorem classFrequency_eq_none {cls : BitVec 4} (h : 3 ≤ cls.toNat) : classFrequency cls = none := by
  revert cls; decide

theorem classFrequency_isSome {cls : BitVec 4} (h : cls.toNat < 3) : (classFrequency cls).isSome := by
  revert cls; decide

theorem configureConflict_iff (s : State) :
    configureConflict s = true ↔
      s.lock ≠ .free ∨ s.masterState ≠ .idle ∨ s.slaveState = .write ∨ s.slaveState = .read ∨
        s.slaveState = .quick := by
  have hslave : midStream s.slaveState = true ↔
      s.slaveState = .write ∨ s.slaveState = .read ∨ s.slaveState = .quick := by
    cases s.slaveState <;> simp [midStream]
  simp [configureConflict, hslave, or_assoc]

/-- The call itself puts nothing in flight. -/
theorem configureConflict_enterCall (a : Nat) (op : EntryPoint) (args : CallArgs) (s : State) :
    configureConflict (enterCall a op args s) = configureConflict s := rfl

section configure
variable {s : State} (hfree : callerFree s) (hinit : s.initialized = true) {addr10 : Bool} {cls : BitVec 4}
include hfree hinit

theorem exec_configure_unsupported (hclass : (if addr10 then none else classFrequency cls) = none) :
    exec (.configure addr10 cls) s =
      .next (returnCall s.issue.caller .configure .unsupported
        (enterCall s.issue.caller .configure (.configure addr10 cls) s)) := by
  refine (checks_pass hfree hinit .configure (.configure addr10 cls) _).trans ?_
  simp only [hclass]

theorem exec_configure_conflict {f : Nat} (hclass : classFrequency cls = some f)
    (hconflict : configureConflict s = true) :
    exec (.configure false cls) s =
      .next (raiseFault .configureWhileBusy (enterCall s.issue.caller .configure (.configure false cls) s)) := by
  refine (checks_pass hfree hinit .configure (.configure false cls) _).trans ?_
  simp only [Bool.false_eq_true, if_false, hclass, configureConflict_enterCall, hconflict, if_true]

theorem exec_configure_ok {f : Nat} {b : BaudFields} (hclass : classFrequency cls = some f)
    (hconflict : configureConflict s = false) (hbaud : baud s.sourceClock f = some b) :
    exec (.configure false cls) s =
      .next (returnCall s.issue.caller .configure .ok
        { programBaud b (enterCall s.issue.caller .configure (.configure false cls) s) with bitrate := f }) := by
  refine (checks_pass hfree hinit .configure (.configure false cls) _).trans ?_
  simp only [Bool.false_eq_true, if_false, hclass, configureConflict_enterCall, hconflict, enterCall_sourceClock, hbaud]

end configure

/-- Settles O27: CONFIGURE checks INIT, the class and what is in flight, in this order, and then programs the fields of
the class's frequency. -/
theorem configureOutcomes : Obligations.ConfigureOutcomes := by
  intro s cls hfree
  refine ⟨fun addr10 hinit => checks_stop hfree hinit .configure _ _,
    fun hinit => ⟨fun addr10 h => ?_, fun hcls h => ?_, ?_⟩⟩
  · have hclass : (if addr10 then none else classFrequency cls) = none := by
      rcases h with rfl | hcls
      · rfl
      · rw [classFrequency_eq_none hcls, ite_self]
    rw [exec_configure_unsupported hfree hinit hclass, returnCall_enterCall, callFrame_free hfree]
    rfl
  · obtain ⟨f, hclass⟩ := Option.isSome_iff_exists.1 (classFrequency_isSome hcls)
    rw [exec_configure_conflict hfree hinit hclass ((configureConflict_iff s).2 h), raiseFault_enterCall_of_free hfree]
  · intro f hf hlock hmaster hslave
    have hclass : classFrequency cls = some f := by
      rcases hf with ⟨rfl, rfl⟩ | ⟨rfl, rfl⟩ | ⟨rfl, rfl⟩ <;> rfl
    have hconflict : configureConflict s = false := by
      rw [Bool.eq_false_iff, ne_eq, configureConflict_iff, hlock, hmaster]
      rcases hslave with h | h <;> simp [h]
    obtain ⟨b, hbaud⟩ := baud_accepted s.sourceClock (hf.imp And.right (Or.imp And.right And.right))
    let e := enterCall s.issue.caller .configure (.configure false cls) s
    have hcallers : ({ programBaud b e with bitrate := f } : State).callers = e.callers := rfl
    refine ⟨b, hbaud, ?_⟩
    rw [exec_configure_ok hfree hinit hclass hconflict hbaud, returnCall_of_entered hfree hcallers, programBaud_eq]
    rfl

end Sys2Proof.Machine

/-! PROOFS. The statements of the callers' transfers (42_master_caller.md): each sub-step with what it leaves unchanged,
the list rules of `combine`, the completion an invocation signals, and that every operation returns. -/

namespace Sys2Proof.Machine

/-! ### Which sub-step a record names (R190, R192) -/

/-- The entry points that take the lock (R190; 44_slave_engine.md R262, R263). -/
def locksFirst (op : EntryPoint) : Prop := op = .transfer ∨ op = .slaveRegister ∨ op = .slaveUnregister

section subStep
variable {s : State} {a : Nat} {op : EntryPoint}

theorem advanceCaller_lockWait (hop : (getCaller s a).op = some op) (hpc : (getCaller s a).pc = 1)
    (hlocks : locksFirst op) : advanceCaller a s = acquire a s := by
  rcases hlocks with rfl | rfl | rfl <;> simp only [advanceCaller, hop, hpc]

theorem expireCaller_lockWait (hop : (getCaller s a).op = some op) (hpc : (getCaller s a).pc = 1)
    (hlocks : locksFirst op) : expireCaller a s = lockExpire a op s := by
  rcases hlocks with rfl | rfl | rfl <;> simp only [expireCaller, hop, hpc]

section transfer
variable (hop : (getCaller s a).op = some .transfer)
include hop

theorem advanceCaller_fill {addr7 : Addr7} {msgs : List Message} (hpc : (getCaller s a).pc = 2)
    (hargs : (getCaller s a).args = .transfer addr7 msgs) : advanceCaller a s = transferFill a addr7 msgs s := by
  simp only [advanceCaller, hop, hpc, hargs]

theorem advanceCaller_arm (hpc : (getCaller s a).pc = 4) : advanceCaller a s = transferArm a s := by
  simp only [advanceCaller, hop, hpc]

theorem advanceCaller_wake (hpc : (getCaller s a).pc = 5) : advanceCaller a s = transferWake a s := by
  simp only [advanceCaller, hop, hpc]

theorem expireCaller_transfer (hpc : (getCaller s a).pc = 5) : expireCaller a s = transferExpire a s := by
  simp only [expireCaller, hop, hpc]

theorem advanceCaller_copyOut (hpc : (getCaller s a).pc = 6) : advanceCaller a s = transferCopyOut a s := by
  simp only [advanceCaller, hop, hpc]

theorem advanceCaller_return (hpc : (getCaller s a).pc = 7) : advanceCaller a s = transferReturn a s := by
  simp only [advanceCaller, hop, hpc]

end transfer

theorem advanceCaller_register {cfg : SlaveConfig} (hop : (getCaller s a).op = some .slaveRegister)
    (hpc : (getCaller s a).pc = 2) (hargs : (getCaller s a).args = .register (some cfg)) :
    advanceCaller a s = registerBody a cfg s := by
  simp only [advanceCaller, hop, hpc, hargs]

theorem advanceCaller_unregister (hop : (getCaller s a).op = some .slaveUnregister) (hpc : (getCaller s a).pc = 2) :
    advanceCaller a s = unregisterBody a s := by
  simp only [advanceCaller, hop, hpc]

/-- Only a wait expires: the lock's at sub-step 1 and the transfer's at sub-step 5 (R190, R194). -/
theorem expireCaller_elsewhere (h1 : (getCaller s a).pc ≠ 1) (h5 : (getCaller s a).pc ≠ 5) : expireCaller a s = s := by
  rcases expireCaller_cases a s with ⟨_, -, hpc, -⟩ | ⟨-, hpc, -⟩ | heq
  · exact absurd hpc h1
  · exact absurd hpc h5
  · exact heq

end subStep

/-! ### A call asks for the lock (R190, R192) -/

theorem acquire_free {s : State} (a : Nat) (h : s.lock = .free) :
    acquire a s = setPc a 2 { s with lock := .held a } := by
  rcases acquire_cases s a with ⟨-, heq⟩ | ⟨⟨b, hb⟩, -⟩
  · exact heq
  · rw [h] at hb; cases hb

theorem acquire_held {s : State} (a : Nat) (h : s.lock ≠ .free) : acquire a s = s := by
  rcases acquire_cases s a with ⟨hfree, -⟩ | ⟨-, heq⟩
  · exact absurd hfree h
  · exact heq

theorem lockExpire_free {s : State} (a : Nat) (op : EntryPoint) (h : s.lock = .free) : lockExpire a op s = s := by
  rcases lockExpire_cases s a op with ⟨-, heq⟩ | ⟨⟨b, hb⟩, -⟩
  · exact heq
  · rw [h] at hb; cases hb

theorem lockExpire_held {s : State} (a : Nat) (op : EntryPoint) (h : s.lock ≠ .free) :
    lockExpire a op s = returnCall a op .busy s := by
  rcases lockExpire_cases s a op with ⟨hfree, -⟩ | ⟨-, heq⟩
  · exact absurd hfree h
  · exact heq

/-- Settles O28: a free caller enters, and takes the lock or waits for it. -/
theorem transferTakesTheLockOrWaits : Obligations.TransferTakesTheLockOrWaits := by
  intro s addr7 n hfree hinit hlength
  have hexec := exec_transfer_of_free hfree hinit addr7 n
  rw [transferMessages_eq hlength] at hexec
  exact ⟨fun hlock => by rw [hexec, acquire_enterCall_lock_free hfree hlock],
    fun hlock => by rw [hexec, acquire_enterCall_lock_held hfree hlock]⟩

/-- Settles O31: advancing takes the lock where it is free, expiring returns where it is held. -/
theorem lockWaitAcquiresOrExpires : Obligations.LockWaitAcquiresOrExpires := by
  intro s a op args outer hc hlocks
  have hop : (getCaller s a).op = some op := by rw [hc]; rfl
  have hpc : (getCaller s a).pc = 1 := by rw [hc]; rfl
  rw [advanceCaller_lockWait hop hpc hlocks, expireCaller_lockWait hop hpc hlocks]
  refine ⟨fun hlock => ⟨?_, lockExpire_free a op hlock⟩, fun hlock => ⟨acquire_held a hlock, ?_⟩⟩
  · have hc' : getCaller { s with lock := .held a } a = { inStep op 1 args with outer := outer } := hc
    rw [acquire_free a hlock, setPc, hc']
    rfl
  · rw [lockExpire_held a op hlock, returnCall, hc]
    rfl

/-! A second call, by the lock's holder (notes/assumptions/18.md). -/

section secondCall
variable {s : State} (hbusy : callerBusy s s.issue.caller = false) (hinit : s.initialized = true)
  (hlock : s.lock ≠ .free)
include hbusy hinit hlock

/-- After the checks before its body, a call that asks for a held lock waits for it. -/
theorem checks_wait (op : EntryPoint) (args : CallArgs) :
    (if callerBusy s s.issue.caller then .next s
      else if (enterCall s.issue.caller op args s).initialized = false then
        .next (raiseFault .notInitialized (enterCall s.issue.caller op args s))
      else .next (acquire s.issue.caller (enterCall s.issue.caller op args s)) :
        Host.Outcome State Fault Refusal) =
      .next (enterCall s.issue.caller op args s) := by
  have hlock' : (enterCall s.issue.caller op args s).lock ≠ .free := hlock
  rw [if_neg (Bool.eq_false_iff.1 hbusy), enterCall_initialized, if_neg (by simp [hinit]), acquire_held _ hlock']

theorem exec_transfer_waits {addr7 : Addr7} {n : BitVec 16} (hlength : s.issue.msgs.length = n.toNat) :
    exec (.transfer addr7 n) s =
      .next (enterCall s.issue.caller .transfer (.transfer addr7 s.issue.msgs) s) := by
  have hmsgs := transferMessages_eq hlength
  exact hmsgs ▸ checks_wait hbusy hinit hlock .transfer (.transfer addr7 (transferMessages n s.issue.msgs))

theorem exec_slaveRegister_waits (addr7 : Addr7) :
    exec (.slaveRegister false addr7 false) s =
      .next (enterCall s.issue.caller .slaveRegister
        (.register (some { addr7 := addr7, addr10 := false, cb := s.issue.callbacks })) s) :=
  checks_wait hbusy hinit hlock .slaveRegister _

theorem exec_slaveUnregister_waits (hslave : s.slaveConfig ≠ none) (hidle : s.masterState = .idle) :
    exec .slaveUnregister s = .next (enterCall s.issue.caller .slaveUnregister .none s) := by
  have hslave' : ¬ s.slaveConfig.isNone = true := by simpa using hslave
  refine Eq.trans ?_ (checks_wait hbusy hinit hlock .slaveUnregister .none)
  show execSlaveUnregister s = _
  simp only [execSlaveUnregister, enterCall_slaveConfig, if_neg hslave', enterCall_masterState, hidle, ne_eq,
    not_true_eq_false, if_false]

end secondCall

/-- Settles O32: the call waits at the held lock with the first operation kept, and its expiry goes back to it. -/
theorem secondCallWaitsOnItself : Obligations.SecondCallWaitsOnItself := by
  intro s i f op args hc hwait hlock hinit hcall
  have hlock' : s.lock ≠ .free := by rw [hlock]; nofun
  have hbusy : callerBusy s s.issue.caller = false := by
    refine (callerBusy_eq_false_iff s _).2 (.inr ⟨hlock, by rw [hc], fun h => hwait ?_⟩)
    rw [hc] at h
    exact ⟨Option.some.inj h.1, h.2⟩
  have hlocks : locksFirst op := by
    rcases hcall with ⟨_, _, -, rfl, -⟩ | ⟨_, -, rfl, -⟩ | ⟨-, rfl, -⟩
    exacts [.inl rfl, .inr (.inl rfl), .inr (.inr rfl)]
  have hexec : exec i s = .next (enterCall s.issue.caller op args s) := by
    rcases hcall with ⟨addr7, n, rfl, rfl, rfl, hlength⟩ | ⟨addr7, rfl, rfl, rfl⟩ | ⟨rfl, rfl, rfl, hslave, hidle⟩
    · exact exec_transfer_waits hbusy hinit hlock' hlength
    · exact exec_slaveRegister_waits hbusy hinit hlock' addr7
    · exact exec_slaveUnregister_waits hbusy hinit hlock' hslave hidle
  have hframe : callFrame (getCaller s s.issue.caller) = some f := by rw [hc]; rfl
  have hentered : getCaller (enterCall s.issue.caller op args s) s.issue.caller =
      { op := some op, pc := 1, args := args, result := none, outer := some f } := by
    rw [getCaller_enterCall, if_pos rfl, hframe]
  have hop : (getCaller (enterCall s.issue.caller op args s) s.issue.caller).op = some op := by rw [hentered]
  have hpc : (getCaller (enterCall s.issue.caller op args s) s.issue.caller).pc = 1 := by rw [hentered]
  have hheld : (enterCall s.issue.caller op args s).lock ≠ .free := hlock'
  refine ⟨_, hexec, by rw [enterCall, hframe], ?_, ?_⟩
  · rw [advanceCaller_lockWait hop hpc hlocks, acquire_held _ hheld]
  · rw [expireCaller_lockWait hop hpc hlocks, lockExpire_held _ op hheld, returnCall_enterCall, hframe]
    rfl

/-! ### The later sub-steps of a transfer (R192 to R198) -/

section atStep
variable {s t : State} {a n k : Nat} {op : EntryPoint} {args : CallArgs}

/-- A caller at a sub-step goes on to another, whatever its step wrote beside the callers. -/
theorem setPc_of_atStep (h : atStep s a op n args) (hcallers : t.callers = s.callers) :
    setPc a k t = setCaller a (inStep op k args) t := by
  rw [setPc, getCaller_congr hcallers, h]
  rfl

/-- Or it returns to no operation. -/
theorem returnCall_of_atStep (h : atStep s a op n args) (hcallers : t.callers = s.callers) (kind : ErrorKind) :
    returnCall a op kind t =
      setCaller a (returned kind) { t with resultLog := t.resultLog ++ [{ caller := a, op := op, kind := kind }] } :=
  returnCall_outermost t a op kind (by rw [getCaller_congr hcallers, h])

end atStep

/-- The transfer's address: bit 0 is set for a Quick Command that reads, and only then (R192, R200). -/
theorem quickAddress_eq (addr7 : Addr7) (msgs : List Message) (tx rx : Nat) :
    quickAddress addr7 msgs tx rx =
      if tx = 0 ∧ rx = 0 ∧ msgs.length = 1 ∧ (∃ m ∈ msgs, m.dir = .read) then addr7 ++ 1#1 else addr7 ++ 0#1 := by
  match msgs with
  | [] => rw [if_neg (by simp)]; rfl
  | [m] =>
    rw [quickAddress, addressByte]
    by_cases hquick : tx = 0 ∧ rx = 0 ∧ m.dir = .read
    · rw [decide_eq_true hquick, if_pos (by simpa using hquick)]; rfl
    · rw [decide_eq_false hquick, if_neg (by simpa using hquick)]; rfl
  | m :: r :: rest => rw [if_neg (by simp)]; rfl

/-- Settles O33: an accepted list is written from cell 0, and a refused one releases the lock. -/
theorem transferFillsTheInstance : Obligations.TransferFillsTheInstance := by
  intro s a addr7 msgs hc
  have hfill : advanceCaller a s = transferFill a addr7 msgs s :=
    advanceCaller_fill (by rw [hc]) (by rw [hc]) (by rw [hc])
  refine ⟨fun tx n d hcombine => ⟨bufWriteList s.txBuffer 0 tx, ?_, fun i => ?_⟩, fun hcombine => ?_⟩
  · rw [hfill, transferFill, hcombine, ← quickAddress_eq]
    exact setPc_of_atStep hc rfl
  · rw [bufRead_bufWriteList _ _ _ (by rw [Nat.zero_add]; exact (combine_bounds hcombine).1)]
    simp
  · rw [hfill, transferFill, hcombine]
    exact returnCall_of_atStep (t := release s) hc rfl .unsupported

/-- `arm()` without thresholds is a start, and with thresholds HW_SET_TIMEOUT and a start (R193). -/
theorem arm_eq (s : State) :
    (s.cfg.hwTimeout = none →
      arm s = { s with
        completion := false, masterState := .start, hw := { s.hw with start := true },
        cmdLog := s.cmdLog ++ [plainCmd 0x10000000#32] }) ∧
    (∀ t, s.cfg.hwTimeout = some t →
      arm s = { s with
        completion := false, masterState := .start,
        hw := { s.hw with toThresholds := t, toEn := true, start := true },
        cmdLog := s.cmdLog ++
          [{ word := 0x1C000000#32, thresholds := some t, result := none }, plainCmd 0x10000000#32] }) := by
  refine ⟨fun htimeout => ?_, fun t htimeout => ?_⟩ <;> unfold arm <;> simp only [htimeout]
  · rfl
  · simp only [hwStart, hwSetTimeout, logCmd, logTimeoutCmd, setHw, List.append_assoc, List.cons_append,
      List.nil_append]
    rfl

/-- Settles O35: the caller's record and `arm()` are apart. -/
theorem armStartsTheTransaction : Obligations.ArmStartsTheTransaction := by
  intro s a args hc
  have harm : advanceCaller a s = arm (setCaller a (inStep .transfer 5 args) s) := by
    rw [advanceCaller_arm (by rw [hc]) (by rw [hc]), transferArm, setPc_arm, setPc_of_atStep hc rfl]
  rw [harm]
  exact arm_eq (setCaller a (inStep .transfer 5 args) s)

/-- Settles O36: the completion decides between the wake and the expiry, and a caller between its arm and its wake may
not call. -/
theorem transferWakesOrExpires : Obligations.TransferWakesOrExpires := by
  intro s a args hc
  have hop : (getCaller s a).op = some .transfer := by rw [hc]
  have hpc : (getCaller s a).pc = 5 := by rw [hc]
  rw [advanceCaller_wake hop hpc, expireCaller_transfer hop hpc]
  refine ⟨fun hsignal => ⟨?_, if_pos hsignal⟩, fun hsignal => ?_, ?_⟩
  · rw [transferWake, if_pos hsignal]
    exact setPc_of_atStep hc rfl
  · have hunsignalled : ¬ s.completion = true := by simp [hsignal]
    refine ⟨if_neg hunsignalled, ?_⟩
    rw [transferExpire, if_neg hunsignalled]
    exact setPc_of_atStep hc rfl
  · rintro rfl
    have hbusy : callerBusy s s.issue.caller = true :=
      callerBusy_of_inside (by simp [hop]) (.inr (.inr ⟨hop, hpc⟩))
    exact ⟨exec_init_busy hbusy, exec_configure_busy hbusy, exec_transfer_busy hbusy, exec_slaveRegister_busy hbusy,
      exec_slaveUnregister_busy hbusy⟩

/-- Settles O38: the return is the release's. -/
theorem transferReturnsTheErrorCode : Obligations.TransferReturnsTheErrorCode := by
  intro s a args hc
  rw [advanceCaller_return (by rw [hc]) (by rw [hc])]
  exact returnCall_of_atStep (t := release { s with readDest := none }) hc rfl s.errorCode

/-! ### The copy into the caller's buffer (R196) -/

/-- Bytes stored in the callers' memory from an address on, in index order (20_memory.md R75). -/
def storeBytes : Nat → List Byte → State → State
  | _, [], s => s
  | a, b :: bs, s => storeBytes (a + 1) bs (setCallerByte a b s)

/-- They change the callers' memory alone. -/
theorem storeBytes_eq (a : Nat) (bs : List Byte) (s : State) :
    storeBytes a bs s = { s with callerMem := (storeBytes a bs s).callerMem } := by
  induction bs generalizing a s with
  | nil => rfl
  | cons b bs ih =>
    have htail := ih (a + 1) (setCallerByte a b s)
    exact htail

/-- The addresses they go to read back as the bytes, and every other as before. -/
theorem callerByte_storeBytes (a : Nat) (bs : List Byte) (s : State) (h : Memory.wf callerUnlisted s.callerMem)
    (x : Nat) :
    some (callerByte (storeBytes a bs s) x) =
      if a ≤ x ∧ x < a + bs.length then bs[x - a]? else some (callerByte s x) := by
  induction bs generalizing a s with
  | nil => rw [if_neg (by simp)]; rfl
  | cons b bs ih =>
    rw [storeBytes, ih (a + 1) _ (setCallerByte_wf s a b h), callerByte_setCallerByte s a b x h, List.length_cons]
    by_cases hx : a = x
    · subst hx; simp
    · by_cases hrest : a + 1 ≤ x ∧ x < a + 1 + bs.length
      · rw [if_pos hrest, if_pos (by omega), show x - a = (x - (a + 1)) + 1 by omega, List.getElem?_cons_succ]
      · rw [if_neg hrest, if_neg hx, if_neg (by omega)]

/-- The copy stores the written cells it comes to, and goes on after them. -/
theorem copyLoop_written (buf n : Nat) (bs : List Byte) (i : Nat) (s : State)
    (h : ∀ j, j < bs.length → bufRead s.rxBuffer (i + j) = bs[j]?) :
    copyLoop buf (bs.length + n) i s = copyLoop buf n (i + bs.length) (storeBytes (buf + i) bs s) := by
  induction bs generalizing i s with
  | nil => rw [List.length_nil, Nat.zero_add]; rfl
  | cons b bs ih =>
    have hfirst : bufRead s.rxBuffer i = some b := h 0 (Nat.zero_lt_succ _)
    have hrest : ∀ j, j < bs.length → bufRead (setCallerByte (buf + i) b s).rxBuffer (i + 1 + j) = bs[j]? := by
      intro j hj
      rw [setCallerByte_rxBuffer, Nat.add_right_comm]
      exact h (j + 1) (Nat.succ_lt_succ hj)
    rw [List.length_cons, Nat.add_right_comm, copyLoop, hfirst]
    refine (ih (i + 1) _ hrest).trans ?_
    rw [Nat.add_assoc, Nat.add_comm 1]
    rfl

section copyOut
variable {s : State} {d : ReadDest} {bytes : List Byte} (hok : s.errorCode = .ok) (hdest : s.readDest = some d)
  (hcells : ∀ i, i < bytes.length → bufRead s.rxBuffer i = bytes[i]?)
include hok hdest hcells

/-- On OK with a destination, whose first cells are written, the copy has these stored before it goes on (R196). -/
theorem copyOut_after_written {n : Nat} (hcount : s.rxCount = bytes.length + n) :
    copyOut s = copyLoop d.buf n bytes.length (storeBytes d.buf bytes s) := by
  have hloop := copyLoop_written d.buf n bytes 0 s (fun j hj => by rw [Nat.zero_add]; exact hcells j hj)
  rw [Nat.zero_add, Nat.add_zero] at hloop
  simp only [copyOut, hok, hdest, hcount, hloop]

theorem copyOut_written (hcount : bytes.length = s.rxCount) : copyOut s = .go () (storeBytes d.buf bytes s) :=
  copyOut_after_written hok hdest hcells (n := 0) hcount.symm

/-- At an unwritten cell it stops with a fault (60_exceptions.md R323). -/
theorem copyOut_unwritten (hcount : bytes.length < s.rxCount) (hstop : bufRead s.rxBuffer bytes.length = none) :
    copyOut s = .halt (raiseFault .unwrittenBufferRead (storeBytes d.buf bytes s)) := by
  obtain ⟨n, hn⟩ : ∃ n, s.rxCount = bytes.length + (n + 1) := ⟨s.rxCount - bytes.length - 1, by omega⟩
  have hstop' : bufRead (storeBytes d.buf bytes s).rxBuffer bytes.length = none := by
    rw [storeBytes_eq]; exact hstop
  rw [copyOut_after_written hok hdest hcells hn, copyLoop, hstop']

end copyOut

/-- Otherwise nothing is copied. -/
theorem copyOut_skipped {s : State} (h : s.errorCode ≠ .ok ∨ s.readDest = none) : copyOut s = .go () s := by
  unfold copyOut
  split
  · rename_i hok hdest
    rcases h with h | h
    · exact absurd hok h
    · rw [hdest] at h; cases h
  · rfl

/-- Settles O37: the copy stores the written cells; then it is done, or stands at an unwritten one. -/
theorem copyOutDeliversTheBytes : Obligations.CopyOutDeliversTheBytes := by
  intro s a args hc
  have hcopy : advanceCaller a s = transferCopyOut a s := advanceCaller_copyOut (by rw [hc]) (by rw [hc])
  refine ⟨fun d bytes hok hdest hwf hcount hcells => ⟨(storeBytes d.buf bytes s).callerMem, ?_, fun x => ?_⟩,
    fun hskip => ?_,
    fun d bytes hok hdest hwf hcount hcells hstop => ⟨(storeBytes d.buf bytes s).callerMem, ?_, fun x => ?_⟩⟩
  · rw [hcopy, transferCopyOut, copyOut_written hok hdest hcells hcount, storeBytes_eq]
    exact setPc_of_atStep hc rfl
  · rw [← storeBytes_eq]
    exact callerByte_storeBytes d.buf bytes s hwf x
  · rw [hcopy, transferCopyOut, copyOut_skipped hskip]
    exact setPc_of_atStep hc rfl
  · rw [hcopy, transferCopyOut, copyOut_unwritten hok hdest hcells hcount hstop, storeBytes_eq]
    rfl
  · rw [← storeBytes_eq]
    exact callerByte_storeBytes d.buf bytes s hwf x

/-! ### The list rules of `combine` (R199, R201) -/

/-- What the loop of `combine` starts from. -/
def noSegments : Segments := { tx := [], rxLen := 0, dest := none, seenRead := false, writes := 0 }

section combine
variable {s : State} {msgs : List Message} {g : Segments}

theorem combine_of_loop_none (h : combineLoop s msgs noSegments = none) : combine s msgs = none := by
  unfold noSegments at h
  simp only [combine, h]

theorem combine_of_loop_some (h : combineLoop s msgs noSegments = some g) :
    combine s msgs = if 256 < g.tx.length ∨ 256 < g.rxLen then none else some (g.tx, g.rxLen, g.dest) := by
  unfold noSegments at h
  simp only [combine, h]
  rfl

/-- Nothing may follow a read. -/
theorem combineLoop_after_read (hseen : g.seenRead = true) (hmore : msgs ≠ []) : combineLoop s msgs g = none := by
  cases msgs with
  | nil => exact absurd rfl hmore
  | cons m ms => unfold combineLoop; cases m.dir <;> simp [hseen]

theorem combineLoop_read {r : Message} (hread : r.dir = .read) (hseen : g.seenRead = false) :
    combineLoop s (r :: msgs) g =
      combineLoop s msgs { g with seenRead := true, rxLen := r.len, dest := some { buf := r.buf, len := r.len } } := by
  simp [combineLoop, hread, hseen]

/-- A write joins the writes before it, if there are any and adjacent writes are joined. -/
theorem combineLoop_write {m : Message} (hwrite : m.dir = .write) (hseen : g.seenRead = false)
    (hjoin : g.writes = 0 ∨ s.cfg.concatAdjacentWrites = true) :
    combineLoop s (m :: msgs) g =
      combineLoop s msgs { g with writes := g.writes + 1, tx := g.tx ++ messageBytes s m } := by
  rcases hjoin with h | h <;> simp [combineLoop, hwrite, hseen, h]

theorem combineLoop_second_write {m : Message} (hwrite : m.dir = .write) (hwrites : 0 < g.writes)
    (hconcat : s.cfg.concatAdjacentWrites = false) : combineLoop s (m :: msgs) g = none := by
  simp [combineLoop, hwrite, hwrites, hconcat]

/-- A read with anything after it is refused, whatever stands before it. -/
theorem combineLoop_read_not_last {before after : List Message} {r : Message} (hread : r.dir = .read)
    (hafter : after ≠ []) : combineLoop s (before ++ r :: after) g = none := by
  rw [combineLoop_append]
  cases combineLoop s before g with
  | none => rfl
  | some k =>
    show combineLoop s (r :: after) k = none
    cases hseen : k.seenRead with
    | true => exact combineLoop_after_read hseen (List.cons_ne_nil r after)
    | false => exact (combineLoop_read hread hseen).trans (combineLoop_after_read rfl hafter)

theorem combine_read_not_last {before after : List Message} {r : Message} (hread : r.dir = .read)
    (hafter : after ≠ []) : combine s (before ++ r :: after) = none :=
  combine_of_loop_none (combineLoop_read_not_last hread hafter)

/-- A run of writes is joined to one segment. -/
theorem combineLoop_writes (hconcat : s.cfg.concatAdjacentWrites = true) (hwrites : ∀ m ∈ msgs, m.dir = .write)
    (hseen : g.seenRead = false) :
    combineLoop s msgs g =
      some { g with writes := g.writes + msgs.length, tx := g.tx ++ msgs.flatMap (messageBytes s) } := by
  induction msgs generalizing g with
  | nil => simp [combineLoop]
  | cons m ms ih =>
    have hrest := ih (g := { g with writes := g.writes + 1, tx := g.tx ++ messageBytes s m })
      (fun r hr => hwrites r (List.mem_cons_of_mem m hr)) hseen
    rw [combineLoop_write (hwrites m List.mem_cons_self) hseen (.inr hconcat), hrest]
    simp [Nat.add_right_comm, ← Nat.add_assoc]

theorem combine_writes (hconcat : s.cfg.concatAdjacentWrites = true) (hwrites : ∀ m ∈ msgs, m.dir = .write) :
    combine s msgs =
      if 256 < (msgs.map Message.len).sum then none else some (msgs.flatMap (messageBytes s), 0, none) := by
  rw [combine_of_loop_some (combineLoop_writes hconcat hwrites rfl)]
  simp [noSegments]

theorem combine_writes_read (hconcat : s.cfg.concatAdjacentWrites = true) (hwrites : ∀ m ∈ msgs, m.dir = .write)
    {r : Message} (hread : r.dir = .read) :
    combine s (msgs ++ [r]) =
      if 256 < (msgs.map Message.len).sum ∨ 256 < r.len then none
      else some (msgs.flatMap (messageBytes s), r.len, some { buf := r.buf, len := r.len }) := by
  have hloop := combineLoop_append s msgs [r] noSegments
  rw [combineLoop_writes hconcat hwrites rfl, Option.bind_some, combineLoop_read hread rfl, combineLoop] at hloop
  rw [combine_of_loop_some hloop]
  simp [noSegments]

theorem combine_read {r : Message} (hread : r.dir = .read) :
    combine s [r] = if 256 < r.len then none else some ([], r.len, some { buf := r.buf, len := r.len }) := by
  rw [combine_of_loop_some (combineLoop_read hread rfl)]
  simp [noSegments]

theorem combine_write {m : Message} (hwrite : m.dir = .write) :
    combine s [m] = if 256 < m.len then none else some (messageBytes s m, 0, none) := by
  rw [combine_of_loop_some (combineLoop_write hwrite rfl (.inl rfl))]
  simp [noSegments]

theorem combine_write_read {m r : Message} (hwrite : m.dir = .write) (hread : r.dir = .read) :
    combine s [m, r] =
      if 256 < m.len ∨ 256 < r.len then none
      else some (messageBytes s m, r.len, some { buf := r.buf, len := r.len }) := by
  have hloop := (combineLoop_write (msgs := [r]) (s := s) hwrite rfl (.inl rfl)).trans
    (combineLoop_read (g := { noSegments with writes := 1, tx := [] ++ messageBytes s m }) hread rfl)
  rw [combine_of_loop_some hloop]
  simp

/-- Where adjacent writes are not joined, two messages or more are refused unless they are a write and a read. -/
theorem combine_unjoined_refused (hconcat : s.cfg.concatAdjacentWrites = false) {m r : Message} {rest : List Message}
    (h : ¬(m.dir = .write ∧ r.dir = .read ∧ rest = [])) : combine s (m :: r :: rest) = none := by
  cases hm : m.dir with
  | read => exact combine_read_not_last (before := []) hm (List.cons_ne_nil r rest)
  | write =>
    cases hr : r.dir with
    | read => exact combine_read_not_last (before := [m]) hr fun hrest => h ⟨hm, hr, hrest⟩
    | write =>
      exact combine_of_loop_none
        ((combineLoop_write hm rfl (.inl rfl)).trans (combineLoop_second_write hr (Nat.succ_pos 0) hconcat))

end combine

/-- Settles O34: each accepted shape is followed through the loop, and the loop refuses what is none of them. -/
theorem combineAcceptsTheShapes : Obligations.CombineAcceptsTheShapes := by
  intro s msgs
  refine ⟨fun hconcat => ?_, fun hconcat hwrites => ⟨combine_writes hconcat hwrites, fun r hread =>
    combine_writes_read hconcat hwrites hread⟩, ?_, fun m => ⟨messageBytes_length s m, fun i hi =>
    messageBytes_get s m hi⟩⟩
  · match msgs with
    | [] => exact combine_of_loop_some (s := s) (msgs := []) (g := noSegments) rfl
    | [m] =>
      show combine s [m] = if 256 < m.len then none else if m.dir = .write then _ else _
      cases hm : m.dir with
      | write => rw [combine_write hm]; rfl
      | read => rw [combine_read hm]; rfl
    | [m, r] =>
      show combine s [m, r] = if m.dir = .write ∧ r.dir = .read ∧ m.len ≤ 256 ∧ r.len ≤ 256 then _ else none
      by_cases hdirs : m.dir = .write ∧ r.dir = .read
      · rw [combine_write_read hdirs.1 hdirs.2]
        by_cases hlong : 256 < m.len ∨ 256 < r.len
        · rw [if_pos hlong, if_neg (by omega)]
        · rw [if_neg hlong, if_pos ⟨hdirs.1, hdirs.2, by omega, by omega⟩]
      · rw [if_neg fun h => hdirs ⟨h.1, h.2.1⟩]
        exact combine_unjoined_refused hconcat fun h => hdirs ⟨h.1, h.2.1⟩
    | m :: r :: x :: rest => exact combine_unjoined_refused hconcat fun h => absurd h.2.2 nofun
  · rintro before after r rfl hread hafter
    exact combine_read_not_last hread hafter

/-! ### The completion an invocation signals (R197; 43_master_engine.md R221) -/

/-- The results the master engine ends a transfer with (43_master_engine.md R225 to R236). -/
def engineResult (e : ErrorKind) : Prop := e = .ok ∨ e = .noAck ∨ e = .busError ∨ e = .timeout

/-- The master ended, signalled with a result of the engine; or it ended no more than before, and neither signalled nor
wrote a result. -/
def MasterSignals (s t : State) : Prop :=
  (t.masterState = .idle ∧ t.completion = true ∧ engineResult t.errorCode) ∨
  ((t.masterState = .idle ↔ s.masterState = .idle) ∧ t.completion = s.completion ∧ t.errorCode = s.errorCode)

section signals
variable {s t u : State}

theorem MasterSignals.trans (h : MasterSignals s t) (k : MasterSignals t u) : MasterSignals s u := by
  rcases k with k | ⟨kidle, kcompl, kerror⟩
  · exact .inl k
  · rcases h with ⟨hidle, hcompl, hresult⟩ | ⟨hidle, hcompl, herror⟩
    · exact .inl ⟨kidle.2 hidle, kcompl.trans hcompl, kerror ▸ hresult⟩
    · exact .inr ⟨kidle.trans hidle, kcompl.trans hcompl, kerror.trans herror⟩

/-- A command signals nothing. -/
theorem CommandEffect.signals (h : CommandEffect s t) : MasterSignals s t := by
  obtain ⟨hw, log, rfl, -⟩ := h
  exact .inr ⟨Iff.rfl, rfl, rfl⟩

theorem signals_endMaster {e : ErrorKind} (he : engineResult e) (s : State) : MasterSignals s (endMaster e s) :=
  .inl ⟨rfl, rfl, he⟩

/-- Going on to another state, a running master signals nothing. -/
theorem signals_running (h : CommandEffect s t) {p : Phase} (hp : p ≠ .idle) (hrun : s.masterState ≠ .idle) :
    MasterSignals s { t with masterState := p } := by
  obtain ⟨hw, log, rfl, -⟩ := h
  exact .inr ⟨iff_of_false hp hrun, rfl, rfl⟩

theorem signals_mStallRead (s : State) : MasterSignals s (mStallRead s).state := by
  have heffect : CommandEffect s (mStallRead s).state :=
    ((effect_hwDmaNackLast s).trans (effect_hwDmaRx _ _)).trans (effect_hwStallDis _)
  exact heffect.signals

theorem signals_mDmaWriteRestart (hrun : s.masterState ≠ .idle) : MasterSignals s (mDmaWriteRestart s).state := by
  have hread : MasterSignals s { s with masterState := .read } := signals_running (.refl s) nofun hrun
  have heffect : CommandEffect { s with masterState := .read } (mDmaWriteRestart s).state :=
    ((effect_hwStallEn _).trans (effect_hwStart _)).trans (effect_hwSendAddr _ _)
  exact hread.trans heffect.signals

end signals

/-- Every row of the master that fires signals exactly when it is terminal (43_master_engine.md R221). -/
theorem signals_masterRow (snap : Snapshot) : ∀ p ∈ masterGroups.flatten, ∀ s, rowFires p.1 snap s = true →
    MasterSignals s (p.2 s).state := by
  intro p hp s hfires
  have running {q : Phase} (hs : s.masterState = q) (hq : q ≠ .idle) : s.masterState ≠ .idle := hs ▸ hq
  have terminal {t : State} (h : CommandEffect s t) {e : ErrorKind} (he : engineResult e) :
      MasterSignals s (endMaster e t) := h.signals.trans (signals_endMaster he t)
  simp only [masterGroups_flatten, List.mem_cons, List.not_mem_nil, or_false] at hp
  rcases hp with rfl | rfl | rfl | rfl | rfl | rfl | rfl | rfl | rfl | rfl | rfl | rfl
  · exact terminal (effect_hwReset s) (.inr (.inr (.inr rfl)))
  · exact terminal (effect_abort s) (.inr (.inl rfl))
  · exact terminal ((effect_abort s).trans (effect_hwReset _)) (.inr (.inr (.inl rfl)))
  · simp only [rowFires_mDrStartQuick, Bool.and_eq_true, decide_eq_true_eq] at hfires
    exact signals_running ((effect_hwStallEn s).trans (effect_hwSendAddr _ _)) nofun (running hfires.1.1 nofun)
  · simp only [rowFires_mDrStartRead, Bool.and_eq_true, decide_eq_true_eq] at hfires
    exact signals_running ((effect_hwStallEn s).trans (effect_hwSendAddr _ _)) nofun (running hfires.1.1 nofun)
  · simp only [rowFires_mDrStartWrite, Bool.and_eq_true, decide_eq_true_eq] at hfires
    exact signals_running (effect_hwSendAddr s _) nofun (running hfires.1.1 nofun)
  · exact (effect_hwDmaTx s _).signals
  · exact signals_mStallRead s
  · exact terminal (effect_hwStop s) (.inl rfl)
  · exact terminal (effect_hwStop s) (.inl rfl)
  · simp only [rowFires_mDmaWriteRestart, Bool.and_eq_true, decide_eq_true_eq] at hfires
    exact signals_mDmaWriteRestart (running hfires.1.1 nofun)
  · exact .inl ⟨rfl, rfl, .inl rfl⟩

theorem signals_dispatchIrq {s : State} (hrun : s.masterState ≠ .idle) : MasterSignals s (dispatchIrq s) := by
  have hgroups : MasterSignals s (runGroups (snapshot s) masterGroups (hwReadStatus s)).state :=
    runGroups_keeps (P := MasterSignals s) _ _
      (fun p hp t ht hfires => ht.trans (signals_masterRow _ p hp t hfires)) _ (effect_hwReadStatus s).signals
  rw [dispatchIrq_master hrun]
  rcases ackSnapshot_cases (snapshot s) (runGroups (snapshot s) masterGroups (hwReadStatus s)) with heq | heq <;>
    rw [heq]
  · exact hgroups.trans (effect_hwAckStatus _ _).signals
  · exact hgroups

/-- Settles O46: with the completion unsignalled before it, an invocation signals exactly in the terminal rows. -/
theorem masterSignalsExactlyWhenItEnds : Obligations.MasterSignalsExactlyWhenItEnds := by
  intro s t hready hrun hunsignalled hexec
  rw [exec_irq_ready hready] at hexec
  cases hexec
  rcases signals_dispatchIrq hrun with ⟨hidle, hcompl, hresult⟩ | ⟨hidle, hcompl, herror⟩
  · exact ⟨iff_of_true hcompl hidle, fun _ => hresult, fun h => absurd hidle h⟩
  · have hgoes : (dispatchIrq s).masterState ≠ .idle := fun h => hrun (hidle.1 h)
    exact ⟨iff_of_false (by simp [hcompl, hunsignalled]) hgoes, fun h => absurd h hgoes, fun _ => herror⟩

/-! ### A caller's step leaves the other callers' records alone (R38) -/

section others
variable {s t u : State} {a : Nat}

theorem othersKept_trans (h : othersKept a s t) (k : othersKept a t u) : othersKept a s u :=
  fun b hb => (k b hb).trans (h b hb)

theorem othersKept_of_callers (h : t.callers = s.callers) : othersKept a s t := fun b _ => getCaller_congr h b

theorem othersKept_setCaller {c : Caller} (hc : c ≠ Caller.idle) (s : State) : othersKept a s (setCaller a c s) :=
  fun b hb => by rw [getCaller_setCaller s a hc, if_neg (Ne.symm hb)]

theorem othersKept_setPc (hcallers : t.callers = s.callers) (hop : (getCaller s a).op ≠ none) (n : Nat) :
    othersKept a s (setPc a n t) :=
  othersKept_trans (othersKept_of_callers hcallers)
    (othersKept_setCaller (withPc_ne_idle n (by rwa [getCaller_congr hcallers])) t)

theorem othersKept_returnCall (hcallers : t.callers = s.callers) (op : EntryPoint) (kind : ErrorKind) :
    othersKept a s (returnCall a op kind t) := fun b hb => by
  rw [getCaller_returnCall, if_neg (Ne.symm hb), getCaller_congr hcallers]

theorem othersKept_acquire (hop : (getCaller s a).op ≠ none) : othersKept a s (acquire a s) := by
  rcases acquire_cases s a with ⟨-, heq⟩ | ⟨-, heq⟩ <;> rw [heq]
  · exact othersKept_setPc rfl hop 2
  · exact othersKept_of_callers rfl

/-- `arm()` changes no record. -/
theorem arm_callers (s : State) : (arm s).callers = s.callers := (effect_arm s).clock.callers

section transfer
variable (hop : (getCaller s a).op ≠ none)
include hop

theorem othersKept_transferFill (addr7 : Addr7) (msgs : List Message) :
    othersKept a s (transferFill a addr7 msgs s) := by
  unfold transferFill
  split
  · exact othersKept_returnCall rfl _ _
  · exact othersKept_setPc rfl hop 4

theorem othersKept_transferArm : othersKept a s (transferArm a s) := othersKept_setPc (arm_callers s) hop 5

theorem othersKept_transferWake : othersKept a s (transferWake a s) := by
  unfold transferWake
  split
  · exact othersKept_setPc rfl hop 6
  · exact othersKept_of_callers rfl

theorem othersKept_transferExpire : othersKept a s (transferExpire a s) := by
  unfold transferExpire
  split
  · exact othersKept_of_callers rfl
  · exact othersKept_setPc rfl hop 6

theorem othersKept_transferCopyOut : othersKept a s (transferCopyOut a s) := by
  obtain ⟨mem, faults, -, -, heq | heq⟩ := transferCopyOut_cases a s <;> rw [heq]
  · exact othersKept_setPc rfl hop 7
  · exact othersKept_of_callers rfl

end transfer

theorem othersKept_transferReturn (a : Nat) (s : State) : othersKept a s (transferReturn a s) :=
  othersKept_returnCall rfl _ _

theorem othersKept_registerBody (a : Nat) (cfg : SlaveConfig) (s : State) :
    othersKept a s (registerBody a cfg s) := by
  rcases registerBody_cases a cfg s with heq | ⟨u, heffect, heq⟩ <;> rw [heq]
  · exact othersKept_returnCall rfl _ _
  · exact othersKept_returnCall (t := release { u with slaveState := .start }) heffect.clock.callers _ _

theorem othersKept_unregisterBody (a : Nat) (s : State) : othersKept a s (unregisterBody a s) := by
  rcases unregisterBody_cases a s with ⟨kind, heq⟩ | ⟨u, heffect, heq⟩ <;> rw [heq]
  · exact othersKept_returnCall rfl _ _
  · exact othersKept_returnCall (t := release { u with slaveState := .idle, slaveConfig := none })
      heffect.clock.callers _ _

theorem othersKept_advanceCaller (a : Nat) (s : State) : othersKept a s (advanceCaller a s) := by
  rcases advanceCaller_cases a s with ⟨op, hop, -, -, heq⟩ | ⟨hop, htransfer⟩ | ⟨cfg, -, -, -, heq⟩ | ⟨-, -, heq⟩ |
    heq
  · exact heq ▸ othersKept_acquire (by simp [hop])
  · have hinside : (getCaller s a).op ≠ none := by simp [hop]
    rcases htransfer with ⟨addr7, msgs, -, -, heq⟩ | ⟨-, heq⟩ | ⟨-, heq⟩ | ⟨-, heq⟩ | ⟨-, heq⟩ <;> rw [heq]
    exacts [othersKept_transferFill hinside addr7 msgs, othersKept_transferArm hinside, othersKept_transferWake hinside,
      othersKept_transferCopyOut hinside, othersKept_transferReturn a s]
  · exact heq ▸ othersKept_registerBody a cfg s
  · exact heq ▸ othersKept_unregisterBody a s
  · exact othersKept_of_callers (congrArg State.callers heq)

theorem othersKept_expireCaller (a : Nat) (s : State) : othersKept a s (expireCaller a s) := by
  rcases expireCaller_cases a s with ⟨op, -, -, -, heq⟩ | ⟨hop, -, heq⟩ | heq <;> rw [heq]
  · rcases lockExpire_cases s a op with ⟨-, heq⟩ | ⟨-, heq⟩ <;> rw [heq]
    · exact othersKept_of_callers rfl
    · exact othersKept_returnCall rfl _ _
  · exact othersKept_transferExpire (by simp [hop])
  · exact othersKept_of_callers rfl

theorem CallRun.keepsOthers (hrun : CallRun s a t) : othersKept a s t := by
  have hentered (op : EntryPoint) (args : CallArgs) : othersKept a s (enterCall a op args s) :=
    othersKept_setCaller (entered_ne_idle op 1 args none _) s
  cases hrun with
  | busy => exact othersKept_of_callers rfl
  | faults op args r _ => exact othersKept_trans (hentered op args) (othersKept_of_callers rfl)
  | returns op args kind u _ heffect =>
    exact othersKept_trans (hentered op args) (othersKept_returnCall heffect.callers op kind)
  | locks op args _ _ _ =>
    refine othersKept_trans (hentered op args) (othersKept_acquire ?_)
    rw [getCaller_enterCall, if_pos rfl]
    nofun
  | bringsUp u v _ _ hclock henable =>
    have hcallers : v.callers = (enterCall a .init .none s).callers := henable.clock.callers.trans hclock.callers
    exact othersKept_trans (othersKept_trans (hentered .init .none)
      (othersKept_returnCall (t := { v with initialized := true }) hcallers .init .ok)) (othersKept_of_callers rfl)

/-- An instruction changes no record but its issuer's. -/
theorem ExecRun.keepsOthers {i : Instr} (hrun : ExecRun i s t) : othersKept s.issue.caller s t := by
  cases hrun with
  | still => exact othersKept_of_callers rfl
  | call hcall => exact hcall.keepsOthers
  | command heffect => exact othersKept_of_callers heffect.callers
  | interrupt _ => exact othersKept_of_callers (keeps_dispatchIrq s).callers
  | masterRow p _ _ hp _ => exact othersKept_of_callers (keeps_rows p (List.mem_append_left _ hp) s).callers
  | slaveRow p _ _ hp _ _ => exact othersKept_of_callers (keeps_rows p (List.mem_append_right _ hp) s).callers

/-- A handler row changes none. -/
theorem exec_keyRow_callers {i : Instr} (hkey : i.isKeyRow = true) (h : exec i s = .next t) :
    t.callers = s.callers := by
  have hrow : ∃ p ∈ masterGroups.flatten ++ slaveGroups.flatten, exec i = execRow p.1 p.2 := by
    rcases exec_keyRow hkey with ⟨p, hp, hexec⟩ | ⟨p, hp, hexec⟩
    · exact ⟨p, List.mem_append_left _ hp, hexec⟩
    · exact ⟨p, List.mem_append_right _ hp, hexec⟩
  obtain ⟨p, hp, hexec⟩ := hrow
  rcases execRow_cases p.1 p.2 s with ⟨-, -, heq⟩ | heq <;> rw [hexec, heq] at h <;> cases h
  · exact (keeps_rows p hp s).callers
  · rfl

theorem rowTable_isKeyRow : ∀ r ∈ rowTable, r.instr.isKeyRow = true := by decide

/-- A key selects a handler row. -/
theorem selectRow_isKeyRow {k : KeyWord} {i : Instr} (h : selectRow k s = some i) : i.isKeyRow = true := by
  obtain ⟨r, hr, rfl⟩ := Option.map_eq_some_iff.1 h
  have hmem : r ∈ rowsOfKey k := List.mem_of_find?_eq_some hr
  unfold rowsOfKey at hmem
  split at hmem
  · exact rowTable_isKeyRow r (List.mem_filter.1 hmem).1
  · cases hmem

/-- The controller changes none. -/
theorem envStep_callers (e : EnvAction) (s : State) : (envStep e s).callers = s.callers := by
  rcases envStep_cases e s with heq | ⟨-, henabled, heq⟩ <;> rw [heq]
  rcases envEffect_cases e s henabled with heq | ⟨hw, event, buf, heq, -⟩ <;> rw [heq]
  rfl

/-- Only a caller's own inputs change its record: its calls, its sub-steps and its expiries. -/
theorem step_keeps_record {x : Input} (hstep : step { s with schedule := [x] } = .next t)
    (hword : ∀ w b, x = .word w b → b.caller ≠ a) (hadvance : x ≠ .advance a) (hexpire : x ≠ .expire a) :
    getCaller t a = getCaller s a := by
  obtain ⟨-, ⟨hnil, -⟩ | ⟨y, rest, hy, hcases⟩⟩ := step_cases hstep
  · cases hnil
  cases hy
  rcases hcases with ⟨w, b, i, hx, -, -, hexec⟩ | ⟨k, i, -, hsel, -, hexec⟩ | rfl | ⟨b, rfl, rfl⟩ | ⟨b, rfl, rfl⟩ |
    ⟨e, -, rfl⟩ | ⟨address, b, -, rfl⟩
  · exact (exec_run hexec).keepsOthers a (Ne.symm (hword w b hx))
  · exact getCaller_congr (exec_keyRow_callers (selectRow_isKeyRow hsel) hexec) a
  · rfl
  · exact othersKept_advanceCaller b _ a fun h => hadvance (h ▸ rfl)
  · exact othersKept_expireCaller b _ a fun h => hexpire (h ▸ rfl)
  · exact getCaller_congr (envStep_callers e (taken s [])) a
  · rfl

end others

/-! ### Every operation returns (60_exceptions.md R340) -/

/-- An upper bound on the steps a record has before it: to the end of its operation, and of the one it interrupted. -/
def stepsLeft (c : Caller) : Nat := (8 - c.pc) + c.outer.elim 0 (fun f => 8 - f.pc)

/-- The caller's operation has fewer steps left, has returned, or has stopped the machine at a fault. -/
def comesCloser (a : Nat) (s t : State) : Prop :=
  t.faults ≠ [] ∨ (getCaller t a).op = none ∨ stepsLeft (getCaller t a) < stepsLeft (getCaller s a)

/-- The caller is in a bounded wait whose success has not come: of the lock, or of the completion (R190, R194). -/
def waits (a : Nat) (s : State) : Prop :=
  ((getCaller s a).pc = 1 ∧ s.lock ≠ .free) ∨ ((getCaller s a).pc = 5 ∧ s.completion = false)

/-- The places a caller inside an operation stands at, with what its next step there needs. -/
inductive StandsAt (c : Caller) : Prop where
  | lockWait (op : EntryPoint) (hop : c.op = some op) (hpc : c.pc = 1) (hlocks : locksFirst op)
  | fill (addr7 : Addr7) (msgs : List Message) (hop : c.op = some .transfer) (hpc : c.pc = 2)
      (hargs : c.args = .transfer addr7 msgs)
  | arm (hop : c.op = some .transfer) (hpc : c.pc = 4)
  | wake (hop : c.op = some .transfer) (hpc : c.pc = 5)
  | copyOut (hop : c.op = some .transfer) (hpc : c.pc = 6)
  | returns (hop : c.op = some .transfer) (hpc : c.pc = 7)
  | register (cfg : SlaveConfig) (hop : c.op = some .slaveRegister) (hpc : c.pc = 2)
      (hargs : c.args = .register (some cfg))
  | unregister (hop : c.op = some .slaveUnregister) (hpc : c.pc = 2)

theorem standsAt_of_atSubStep {c : Caller} {op : EntryPoint} (hop : c.op = some op)
    (h : atSubStep { op := op, pc := c.pc, args := c.args }) : StandsAt c := by
  unfold atSubStep at h
  dsimp only at h
  split at h
  · rename_i hargs
    rcases h with hpc | hpc | hpc | hpc | hpc | hpc
    exacts [.lockWait _ hop hpc (.inl rfl), .fill _ _ hop hpc hargs, .arm hop hpc, .wake hop hpc, .copyOut hop hpc,
      .returns hop hpc]
  · rename_i hargs
    rcases h with hpc | hpc
    exacts [.lockWait _ hop hpc (.inr (.inl rfl)), .register _ hop hpc hargs]
  · rcases h with hpc | hpc
    exacts [.lockWait _ hop hpc (.inr (.inr rfl)), .unregister hop hpc]
  · exact h.elim

/-- A caller inside an operation stands at one of them, unless a fault is recorded (R38). -/
theorem State.Inv.standsAt {s : State} {a : Nat} (h : s.Inv) (hf : s.faults = []) (hop : (getCaller s a).op ≠ none) :
    StandsAt (getCaller s a) := by
  obtain ⟨op, hop'⟩ := Option.ne_none_iff_exists'.1 hop
  exact standsAt_of_atSubStep hop' ((h.caller a).subSteps hf _ (.inl (callFrame_inside hop')))

section closer
variable {s t : State} {a n : Nat}

/-- A step that comes closer changes the state. -/
theorem comesCloser.ne (h : comesCloser a s t) (hf : s.faults = []) (hop : (getCaller s a).op ≠ none) : t ≠ s := by
  rintro rfl
  rcases h with h | h | h
  · exact h hf
  · exact hop h
  · exact Nat.lt_irrefl _ h

/-- Going on to a later sub-step comes closer. -/
theorem closer_setPc (hcallers : t.callers = s.callers) (hop : (getCaller s a).op ≠ none)
    (hpc : (getCaller s a).pc < n) (hn : n ≤ 7) : comesCloser a s (setPc a n t) := by
  have hc : getCaller (setPc a n t) a = { getCaller s a with pc := n } := by
    rw [getCaller_setPc t a (by rwa [getCaller_congr hcallers]), if_pos rfl, getCaller_congr hcallers]
  refine .inr (.inr ?_)
  rw [hc, stepsLeft, stepsLeft]
  dsimp only
  omega

/-- So does a return, be it to an interrupted operation: the returning one had steps left. -/
theorem closer_returnCall (hcallers : t.callers = s.callers) (hpc : (getCaller s a).pc ≤ 7) (op : EntryPoint)
    (kind : ErrorKind) : comesCloser a s (returnCall a op kind t) := by
  have hc : getCaller (returnCall a op kind t) a = afterReturn (getCaller s a).outer kind := by
    rw [getCaller_returnCall, if_pos rfl, getCaller_congr hcallers]
  refine .inr ?_
  rw [hc, stepsLeft, stepsLeft]
  cases (getCaller s a).outer with
  | none => exact .inl rfl
  | some f =>
    refine .inr ?_
    simp only [afterReturn, Option.elim]
    omega

/-- The copy goes on to its end or stops at a fault (R196). -/
theorem copyOut_goes_or_faults (s : State) :
    (∃ mem, copyOut s = .go () { s with callerMem := mem }) ∨
    ∃ mem, copyOut s = .halt { s with callerMem := mem, faults := s.faults ++ [.unwrittenBufferRead] } := by
  have hloop (buf n i : Nat) (s : State) :
      (∃ mem, copyLoop buf n i s = .go () { s with callerMem := mem }) ∨
      ∃ mem, copyLoop buf n i s = .halt { s with callerMem := mem, faults := s.faults ++ [.unwrittenBufferRead] } := by
    induction n generalizing i s with
    | zero => exact .inl ⟨_, rfl⟩
    | succ n ih =>
      unfold copyLoop
      split
      · exact .inr ⟨_, rfl⟩
      · rename_i b _
        exact ih (i + 1) (setCallerByte (buf + i) b s)
  unfold copyOut
  split
  · exact hloop _ _ _ _
  · exact .inl ⟨_, rfl⟩

theorem closer_transferCopyOut (hop : (getCaller s a).op ≠ none) (hpc : (getCaller s a).pc = 6) :
    comesCloser a s (transferCopyOut a s) := by
  unfold transferCopyOut
  rcases copyOut_goes_or_faults s with ⟨mem, heq⟩ | ⟨mem, heq⟩ <;> rw [heq]
  · exact closer_setPc rfl hop (by omega) (Nat.le_refl 7)
  · exact .inl (by simp)

theorem closer_transferFill (addr7 : Addr7) (msgs : List Message) (hop : (getCaller s a).op ≠ none)
    (hpc : (getCaller s a).pc = 2) : comesCloser a s (transferFill a addr7 msgs s) := by
  unfold transferFill
  split
  · exact closer_returnCall (s := s) (t := release s) rfl (by omega) _ _
  · exact closer_setPc rfl hop (by omega) (by decide)

theorem closer_registerBody (cfg : SlaveConfig) (hpc : (getCaller s a).pc = 2) :
    comesCloser a s (registerBody a cfg s) := by
  rcases registerBody_cases a cfg s with heq | ⟨u, heffect, heq⟩ <;> rw [heq]
  · exact closer_returnCall (s := s) (t := release s) rfl (by omega) _ _
  · exact closer_returnCall (s := s) (t := release { u with slaveState := .start }) heffect.clock.callers (by omega) _ _

theorem closer_unregisterBody (hpc : (getCaller s a).pc = 2) : comesCloser a s (unregisterBody a s) := by
  rcases unregisterBody_cases a s with ⟨kind, heq⟩ | ⟨u, heffect, heq⟩ <;> rw [heq]
  · exact closer_returnCall (s := s) (t := release s) rfl (by omega) _ _
  · exact closer_returnCall (s := s) (t := release { u with slaveState := .idle, slaveConfig := none })
      heffect.clock.callers (by omega) _ _

/-- A caller whose wait has not come to its success goes on waiting, and its expiry is a step (R190, R194). -/
theorem expiry_of_waits (hat : StandsAt (getCaller s a)) (hwaits : waits a s) :
    advanceCaller a s = s ∧ comesCloser a s (expireCaller a s) := by
  rcases hwaits with ⟨hpc, hlock⟩ | ⟨hpc, hsignal⟩
  · cases hat with
    | lockWait op hop hpc hlocks =>
      rw [advanceCaller_lockWait hop hpc hlocks, expireCaller_lockWait hop hpc hlocks, lockExpire_held a op hlock]
      exact ⟨acquire_held a hlock, closer_returnCall (s := s) rfl (by omega) _ _⟩
    | _ => omega
  · cases hat with
    | wake hop hpc =>
      have hunsignalled : ¬ s.completion = true := by simp [hsignal]
      rw [advanceCaller_wake hop hpc, expireCaller_transfer hop hpc, transferWake, transferExpire,
        if_neg hunsignalled, if_neg hunsignalled]
      exact ⟨rfl, closer_setPc rfl (by simp [hop]) (by omega) (by decide)⟩
    | _ => omega

/-- Every other caller inside an operation has its next sub-step, and no expiry. -/
theorem advance_of_not_waits (hat : StandsAt (getCaller s a)) (hwaits : ¬ waits a s) :
    comesCloser a s (advanceCaller a s) ∧ expireCaller a s = s := by
  cases hat with
  | lockWait op hop hpc hlocks =>
    have hlock : s.lock = .free := Classical.byContradiction fun h => hwaits (.inl ⟨hpc, h⟩)
    rw [advanceCaller_lockWait hop hpc hlocks, expireCaller_lockWait hop hpc hlocks, acquire_free a hlock]
    exact ⟨closer_setPc rfl (by simp [hop]) (by omega) (by decide), lockExpire_free a op hlock⟩
  | fill addr7 msgs hop hpc hargs =>
    rw [advanceCaller_fill hop hpc hargs]
    exact ⟨closer_transferFill addr7 msgs (by simp [hop]) hpc, expireCaller_elsewhere (by omega) (by omega)⟩
  | arm hop hpc =>
    rw [advanceCaller_arm hop hpc]
    exact ⟨closer_setPc (arm_callers s) (by simp [hop]) (by omega) (by decide),
      expireCaller_elsewhere (by omega) (by omega)⟩
  | wake hop hpc =>
    have hsignal : s.completion = true := by
      rw [← Bool.not_eq_false]; exact fun h => hwaits (.inr ⟨hpc, h⟩)
    rw [advanceCaller_wake hop hpc, expireCaller_transfer hop hpc, transferWake, transferExpire, if_pos hsignal,
      if_pos hsignal]
    exact ⟨closer_setPc rfl (by simp [hop]) (by omega) (by decide), rfl⟩
  | copyOut hop hpc =>
    rw [advanceCaller_copyOut hop hpc]
    exact ⟨closer_transferCopyOut (by simp [hop]) hpc, expireCaller_elsewhere (by omega) (by omega)⟩
  | returns hop hpc =>
    rw [advanceCaller_return hop hpc]
    exact ⟨closer_returnCall (s := s) (t := release { s with readDest := none }) rfl (by omega) _ _,
      expireCaller_elsewhere (by omega) (by omega)⟩
  | register cfg hop hpc hargs =>
    rw [advanceCaller_register hop hpc hargs]
    exact ⟨closer_registerBody cfg hpc, expireCaller_elsewhere (by omega) (by omega)⟩
  | unregister hop hpc =>
    rw [advanceCaller_unregister hop hpc]
    exact ⟨closer_unregisterBody hpc, expireCaller_elsewhere (by omega) (by omega)⟩

/-- So a caller inside an operation always has an enabled step. -/
theorem State.Inv.enabled_inside (h : s.Inv) (hf : s.faults = []) (hop : (getCaller s a).op ≠ none) :
    callerEnabled a s = true := by
  have hat : StandsAt (getCaller s a) := h.standsAt hf hop
  rw [callerEnabled, Bool.or_eq_true, decide_eq_true_eq, decide_eq_true_eq]
  by_cases hwaits : waits a s
  · exact .inr ((expiry_of_waits hat hwaits).2.ne hf hop)
  · exact .inl ((advance_of_not_waits hat hwaits).1.ne hf hop)

/-- The caller's own inputs are its sub-step and its expiry, taken off the schedule. -/
theorem step_advance (hf : s.faults = []) (hstep : step { s with schedule := [.advance a] } = .next t) :
    t = advanceCaller a (taken s []) :=
  Host.Outcome.next.inj (hstep.symm.trans (step_agent hf rfl rfl))

theorem step_expire (hf : s.faults = []) (hstep : step { s with schedule := [.expire a] } = .next t) :
    t = expireCaller a (taken s []) :=
  Host.Outcome.next.inj (hstep.symm.trans (step_agent hf rfl rfl))

/-- Where the caller makes no call, a step leaves its record as it is or brings its operation closer to its end. -/
theorem record_or_closer {x : Input} (h : s.Inv) (hf : s.faults = []) (hop : (getCaller s a).op ≠ none)
    (hstep : step { s with schedule := [x] } = .next t) (hword : ∀ w b, x = .word w b → b.caller ≠ a) :
    getCaller t a = getCaller s a ∨ comesCloser a s t := by
  have hat : StandsAt (getCaller (taken s []) a) := h.standsAt hf hop
  have still {u : State} (hu : u = taken s []) : getCaller u a = getCaller s a := by rw [hu]; rfl
  by_cases hadvance : x = .advance a
  · subst hadvance
    rw [step_advance hf hstep]
    by_cases hwaits : waits a (taken s [])
    · exact .inl (still (expiry_of_waits hat hwaits).1)
    · exact .inr (advance_of_not_waits hat hwaits).1
  by_cases hexpire : x = .expire a
  · subst hexpire
    rw [step_expire hf hstep]
    by_cases hwaits : waits a (taken s [])
    · exact .inr (expiry_of_waits hat hwaits).2
    · exact .inl (still (advance_of_not_waits hat hwaits).2)
  exact .inl (step_keeps_record hstep hword hadvance hexpire)

/-- An enabled step of the caller brings it closer. -/
theorem closer_of_callerSteps {x : Input} (h : s.Inv) (hf : s.faults = []) (hop : (getCaller s a).op ≠ none)
    (hstep : step { s with schedule := [x] } = .next t) (hsteps : callerSteps a x s = true) : comesCloser a s t := by
  have hat : StandsAt (getCaller s a) := h.standsAt hf hop
  have hat' : StandsAt (getCaller (taken s []) a) := hat
  rw [callerSteps, Bool.or_eq_true, decide_eq_true_eq, decide_eq_true_eq] at hsteps
  rcases hsteps with ⟨rfl, hchanges⟩ | ⟨rfl, hchanges⟩
  · have hwaits : ¬ waits a (taken s []) := fun hw => hchanges (expiry_of_waits hat hw).1
    rw [step_advance hf hstep]
    exact (advance_of_not_waits hat' hwaits).1
  · have hwaits : waits a (taken s []) :=
      Classical.byContradiction fun hw => hchanges (advance_of_not_waits hat hw).2
    rw [step_expire hf hstep]
    exact (expiry_of_waits hat' hwaits).2

end closer

/-! The run. -/

section run
variable {inputs : Nat → Input} {run : Nat → State} {a k : Nat}

/-- No fault is ever recorded on a run that never stops. -/
theorem isRun.faults (hrun : isRun inputs run) (n : Nat) : (run n).faults = [] := (step_cases (hrun n)).1

theorem isRun.inv (hrun : isRun inputs run) (h0 : (run 0).Inv) (n : Nat) : (run n).Inv := by
  induction n with
  | zero => exact h0
  | succ n ih => exact stepKeepsTheInvariant _ _ (ih.scheduled [inputs n] (run n).issue) (hrun n)

variable (hrun : isRun inputs run) (h0 : (run 0).Inv)
  (hcalls : ∀ m w b, k ≤ m → inputs m = .word w b → b.caller = a → (getCaller (run m) a).op = none)
  (hinside : ∀ m, k ≤ m → (getCaller (run m) a).op ≠ none)
include hrun h0 hinside

/-- While the caller stays inside its operations, an enabled step of it leaves it fewer steps. -/
theorem stepsLeft_lt_of_callerSteps {m : Nat} (hm : k ≤ m) (hsteps : callerSteps a (inputs m) (run m) = true) :
    stepsLeft (getCaller (run (m + 1)) a) < stepsLeft (getCaller (run m) a) :=
  ((closer_of_callerSteps (hrun.inv h0 m) (hrun.faults m) (hinside m hm) (hrun m) hsteps).resolve_left
    (not_not.2 (hrun.faults (m + 1)))).resolve_left (hinside (m + 1) (by omega))

include hcalls

/-- And no other step leaves it more. -/
theorem stepsLeft_antitone {n m : Nat} (hn : k ≤ n) (hm : n ≤ m) :
    stepsLeft (getCaller (run m) a) ≤ stepsLeft (getCaller (run n) a) := by
  induction m, hm using Nat.le_induction with
  | base => exact Nat.le_refl _
  | succ m hm ih =>
    have hk : k ≤ m := hn.trans hm
    refine le_trans ?_ ih
    rcases record_or_closer (hrun.inv h0 m) (hrun.faults m) (hinside m hk) (hrun m)
      fun w b hx hb => hinside m hk (hcalls m w b hk hx hb) with heq | hcloser
    · rw [heq]
    · exact Nat.le_of_lt ((hcloser.resolve_left (not_not.2 (hrun.faults (m + 1)))).resolve_left
        (hinside (m + 1) (by omega)))

/-- A fair caller does not stay inside for ever: it would take enabled steps without end. -/
theorem not_inside_forever (hfair : fairCaller a inputs run) : False := by
  have hdescent (d n : Nat) (hn : k ≤ n) : stepsLeft (getCaller (run n) a) ≠ d := by
    induction d using Nat.strong_induction_on generalizing n with
    | _ d ih =>
      rintro rfl
      obtain ⟨m, hm, hsteps⟩ := hfair n fun m hm =>
        (hrun.inv h0 m).enabled_inside (hrun.faults m) (hinside m (hn.trans hm))
      have hlt := stepsLeft_lt_of_callerSteps hrun h0 hinside (hn.trans hm) hsteps
      have hle := stepsLeft_antitone hrun h0 hcalls hinside hn hm
      exact ih _ (hlt.trans_le hle) (m + 1) (by omega) rfl
  exact hdescent _ k (Nat.le_refl k) rfl

end run

/-- Settles O60: from the step on from which the caller makes no call inside an operation, each of its enabled steps
brings it closer to the end of its operations, so it does not stay inside for ever. -/
theorem everyCallerOperationReturns : Obligations.EveryCallerOperationReturns := by
  rintro inputs run a h0 hrun hfair ⟨k, hcalls⟩ n hop
  refine Classical.byContradiction fun hnever => ?_
  have hinside : ∀ m, n ≤ m → (getCaller (run m) a).op ≠ none := by
    intro m hm hout
    rcases Nat.lt_or_eq_of_le hm with hlt | rfl
    · exact hnever ⟨m, hlt, hout⟩
    · exact hop hout
  exact not_inside_forever (k := max k n) hrun h0 (fun m w b hm => hcalls m w b (le_of_max_le_left hm))
    (fun m hm => hinside m (le_of_max_le_right hm)) hfair
end Sys2Proof.Machine

/-! PROOFS. The statements of the master engine (43_master_engine.md): each of its rows run on its own, and which steps
take an engine out of Idle and bring the slave back to it. -/

namespace Sys2Proof.Machine

/-! ### Who takes an engine out of Idle (R237; 44_slave_engine.md R281) -/

/-- Neither engine leaves Idle, and after INIT the slave does not come back to it. -/
def StaysIdle (s t : State) : Prop :=
  (s.masterState = .idle → t.masterState = .idle) ∧ (s.slaveState = .idle → t.slaveState = .idle) ∧
  (s.initialized = true → s.slaveState ≠ .idle → t.slaveState ≠ .idle)

section idle
variable {s t : State}

theorem StaysIdle.of_eq (hmaster : t.masterState = s.masterState) (hslave : t.slaveState = s.slaveState) :
    StaysIdle s t := by
  unfold StaysIdle
  rw [hmaster, hslave]
  exact ⟨id, id, fun _ => id⟩

theorem StaysIdle.refl (s : State) : StaysIdle s s := .of_eq rfl rfl

theorem ClockEffect.masterState (h : ClockEffect s t) : t.masterState = s.masterState := by
  obtain ⟨o, rate, speed, hw, log, rfl, -⟩ := h; rfl

theorem ClockEffect.slaveState (h : ClockEffect s t) : t.slaveState = s.slaveState := by
  obtain ⟨o, rate, speed, hw, log, rfl, -⟩ := h; rfl

theorem ClockEffect.staysIdle (h : ClockEffect s t) : StaysIdle s t := .of_eq h.masterState h.slaveState

/-- The master's rows start no transaction: they leave an Idle master Idle. -/
theorem MasterMoves.staysIdle (m : MasterMoves s t) : StaysIdle s t := by
  have hslave : t.slaveState = s.slaveState := by rw [m.frame]
  refine ⟨fun hidle => ?_, hslave.trans, fun _ hactive => hslave ▸ hactive⟩
  exact Classical.byContradiction fun hm => (m.running hm).1 hidle

/-- The slave's rows run while it is not Idle, and keep it so. -/
theorem SlaveMoves.staysIdle {tx : Bool} (m : SlaveMoves tx s t) (hactive : s.slaveState ≠ .idle) : StaysIdle s t := by
  have hmaster : t.masterState = s.masterState := by rw [m.frame]
  exact ⟨hmaster.trans, fun hidle => absurd hidle hactive, fun _ => m.active⟩

theorem staysIdle_dispatchIrq (s : State) : StaysIdle s (dispatchIrq s) := by
  by_cases hmaster : s.masterState = .idle
  · cases hrouted : routedTo .slave s with
    | true => exact (moves_dispatchIrq_slave hrouted).staysIdle ((routedTo_slave s).1 hrouted).2.2
    | false => exact (effect_dispatchIrq_spurious hmaster hrouted).clock.staysIdle
  · exact (moves_dispatchIrq_master hmaster).staysIdle

/-- A call moves no engine, but for the INIT that makes both Idle (41_baud_lifecycle.md R175). -/
theorem CallRun.staysIdle {a : Nat} (hrun : CallRun s a t) : StaysIdle s t := by
  cases hrun with
  | busy => exact .refl s
  | faults op args r _ => exact .of_eq rfl rfl
  | returns op args kind u _ heffect => exact .of_eq heffect.masterState heffect.slaveState
  | locks op args _ _ _ => exact .of_eq (acquire_masterState _ _) (acquire_slaveState _ _)
  | bringsUp u v _ hinit _ henable =>
    exact ⟨fun _ => henable.clock.masterState, fun _ => henable.clock.slaveState,
      fun h => absurd (hinit.symm.trans h) nofun⟩

theorem ExecRun.staysIdle {i : Instr} (hrun : ExecRun i s t) : StaysIdle s t := by
  cases hrun with
  | still => exact .refl s
  | call hcall => exact hcall.staysIdle
  | command heffect => exact heffect.staysIdle
  | interrupt _ => exact staysIdle_dispatchIrq s
  | masterRow p snap _ hp hfires => exact (moves_masterRow snap p hp s hfires).staysIdle
  | slaveRow p snap _ hp hrouted hfires =>
    exact (moves_slaveRow snap p hp s hfires).staysIdle ((routedTo_slave s).1 hrouted).2.2

theorem staysIdle_transferFill (a : Nat) (addr7 : Addr7) (msgs : List Message) (s : State) :
    StaysIdle s (transferFill a addr7 msgs s) := by
  unfold transferFill
  split <;> exact .of_eq rfl rfl

theorem staysIdle_transferWake (a : Nat) (s : State) : StaysIdle s (transferWake a s) := by
  unfold transferWake
  split <;> exact .of_eq rfl rfl

theorem staysIdle_transferCopyOut (a : Nat) (s : State) : StaysIdle s (transferCopyOut a s) := by
  obtain ⟨mem, faults, -, -, heq | heq⟩ := transferCopyOut_cases a s <;> rw [heq] <;> exact .of_eq rfl rfl

/-- Step 4 of a transfer starts the master (42_master_caller.md R193). -/
theorem transferArm_masterState (a : Nat) (s : State) : (transferArm a s).masterState = .start :=
  (effect_arm s).clock.masterState

theorem transferArm_slaveState (a : Nat) (s : State) : (transferArm a s).slaveState = s.slaveState :=
  (effect_arm s).clock.slaveState

/-- Step 2 of a registration starts the slave, or moves no engine (44_slave_engine.md R262). -/
theorem registerBody_engines (a : Nat) (cfg : SlaveConfig) (s : State) :
    StaysIdle s (registerBody a cfg s) ∨
    ((registerBody a cfg s).masterState = s.masterState ∧ (registerBody a cfg s).slaveState = .start) := by
  rcases registerBody_cases a cfg s with heq | ⟨u, heffect, heq⟩ <;> rw [heq]
  · exact .inl (.of_eq rfl rfl)
  · exact .inr ⟨heffect.clock.masterState, rfl⟩

/-- Step 2 of an unregistration makes the slave Idle, or moves no engine (R263). -/
theorem unregisterBody_engines (a : Nat) (s : State) :
    StaysIdle s (unregisterBody a s) ∨
    ((unregisterBody a s).masterState = s.masterState ∧ (unregisterBody a s).slaveState = .idle) := by
  rcases unregisterBody_cases a s with ⟨kind, heq⟩ | ⟨u, heffect, heq⟩ <;> rw [heq]
  · exact .inl (.of_eq rfl rfl)
  · exact .inr ⟨heffect.clock.masterState, rfl⟩

/-- One of the three sub-steps by which caller `a` moves an engine out of Idle or back, with the engine it leaves
alone. -/
def CallerMoves (a : Nat) (s t : State) : Prop :=
  ((getCaller s a).op = some .transfer ∧ (getCaller s a).pc = 4 ∧
    t.masterState = .start ∧ t.slaveState = s.slaveState) ∨
  ((getCaller s a).op = some .slaveRegister ∧ (getCaller s a).pc = 2 ∧
    t.masterState = s.masterState ∧ t.slaveState = .start) ∨
  ((getCaller s a).op = some .slaveUnregister ∧ (getCaller s a).pc = 2 ∧
    t.masterState = s.masterState ∧ t.slaveState = .idle)

theorem advanceCaller_engines (a : Nat) (s : State) :
    StaysIdle s (advanceCaller a s) ∨ CallerMoves a s (advanceCaller a s) := by
  rcases advanceCaller_cases a s with ⟨op, -, -, -, heq⟩ | ⟨hop, htransfer⟩ | ⟨cfg, hop, hpc, -, heq⟩ |
    ⟨hop, hpc, heq⟩ | heq
  · exact .inl (heq ▸ .of_eq (acquire_masterState _ _) (acquire_slaveState _ _))
  · rcases htransfer with ⟨addr7, msgs, -, -, heq⟩ | ⟨hpc, heq⟩ | ⟨-, heq⟩ | ⟨-, heq⟩ | ⟨-, heq⟩ <;> rw [heq]
    · exact .inl (staysIdle_transferFill a addr7 msgs s)
    · exact .inr (.inl ⟨hop, hpc, transferArm_masterState a s, transferArm_slaveState a s⟩)
    · exact .inl (staysIdle_transferWake a s)
    · exact .inl (staysIdle_transferCopyOut a s)
    · exact .inl (.of_eq rfl rfl)
  · rw [heq]
    exact (registerBody_engines a cfg s).imp_right fun h => .inr (.inl ⟨hop, hpc, h⟩)
  · rw [heq]
    exact (unregisterBody_engines a s).imp_right fun h => .inr (.inr ⟨hop, hpc, h⟩)
  · exact .inl (heq.symm ▸ .refl s)

/-- An expiry makes the master Idle, or moves no engine (42_master_caller.md R190, R195). -/
theorem staysIdle_expireCaller (a : Nat) (s : State) : StaysIdle s (expireCaller a s) := by
  rcases expireCaller_cases a s with ⟨op, -, -, -, heq⟩ | ⟨-, -, heq⟩ | heq <;> rw [heq]
  · rcases lockExpire_cases s a op with ⟨-, heq⟩ | ⟨-, heq⟩ <;> rw [heq] <;> exact .of_eq rfl rfl
  · unfold transferExpire
    split
    · exact .refl s
    · exact ⟨fun _ => rfl, id, fun _ => id⟩
  · exact .refl s

/-- The controller moves no engine. -/
theorem staysIdle_envStep (e : EnvAction) (s : State) : StaysIdle s (envStep e s) := by
  rcases envStep_cases e s with heq | ⟨-, henabled, heq⟩ <;> rw [heq]
  · exact .refl s
  · rcases envEffect_cases e s henabled with heq | ⟨hw, event, buf, heq, -⟩ <;> rw [heq] <;> exact .of_eq rfl rfl

/-- Of all steps only a caller's sub-step moves an engine out of Idle or the slave back to it. -/
theorem step_engines (h : step s = .next t) :
    StaysIdle s t ∨ ∃ a rest, s.schedule = .advance a :: rest ∧ CallerMoves a s t := by
  obtain ⟨-, ⟨-, rfl⟩ | ⟨x, rest, hs, hx⟩⟩ := step_cases h
  · exact .inl (.refl _)
  rcases hx with ⟨w, b, i, -, -, -, hexec⟩ | ⟨k, i, -, -, -, hexec⟩ | rfl | ⟨a, rfl, rfl⟩ | ⟨a, -, rfl⟩ | ⟨e, -, rfl⟩ |
    ⟨address, b, -, rfl⟩
  · exact .inl (exec_run hexec).staysIdle
  · exact .inl (exec_run hexec).staysIdle
  · exact .inl (.of_eq rfl rfl)
  · exact (advanceCaller_engines a (taken s rest)).imp_right fun hmoves => ⟨a, rest, hs, hmoves⟩
  · exact .inl (staysIdle_expireCaller a (taken s rest))
  · exact .inl (staysIdle_envStep e (taken s rest))
  · exact .inl (.of_eq rfl rfl)

end idle

/-- Settles O59: of all steps only three of a caller's sub-steps move an engine out of Idle or the slave back to it, and
each moves one engine. -/
theorem onlyCallersEnterAndLeaveIdle : Obligations.OnlyCallersEnterAndLeaveIdle := by
  intro s t hstep
  rcases step_engines hstep with ⟨hmaster, hslave, hactive⟩ | ⟨a, rest, hs, hmoves⟩
  · exact ⟨fun h h' => absurd (hmaster h) h', fun h h' => absurd (hslave h) h', fun hi h h' => absurd h' (hactive hi h)⟩
  rcases hmoves with ⟨hop, hpc, hmaster, hslave⟩ | ⟨hop, hpc, hmaster, hslave⟩ | ⟨hop, hpc, hmaster, hslave⟩
  · exact ⟨fun _ _ => ⟨hmaster, a, rest, hs, hop, hpc⟩, fun h h' => absurd (hslave.trans h) h',
      fun _ h h' => absurd (hslave.symm.trans h') h⟩
  · exact ⟨fun h h' => absurd (hmaster.trans h) h', fun _ _ => ⟨hslave, a, rest, hs, hop, hpc⟩,
      fun _ _ h' => absurd (hslave.symm.trans h') nofun⟩
  · exact ⟨fun h h' => absurd (hmaster.trans h) h', fun _ h' => absurd hslave h',
      fun _ _ _ => ⟨a, rest, hs, hop, hpc⟩⟩

/-! ### Commands in sequence -/

/-- `s` after commands that leave the register block as `hw` and append `log` to the command log. -/
def afterCommands (s : State) (hw : Hw) (log : List CmdEntry) : State := { s with hw := hw, cmdLog := s.cmdLog ++ log }

theorem logCmd_setHw (i : Instr) (f : Hw → Hw) (s : State) :
    logCmd i none (setHw f s) = afterCommands s (f s.hw) [plainCmd (encodeWord i)] := rfl

theorem afterCommands_afterCommands (s : State) (hw hw' : Hw) (log log' : List CmdEntry) :
    afterCommands (afterCommands s hw log) hw' log' = afterCommands s hw' (log ++ log') := by
  simp only [afterCommands, List.append_assoc]

/-- What ABORT logs: the stop, the clear, the wait with its result, and the clear of the DMA's flag (30_encoding.md
R117). -/
def abortLog (busy : Bool) : List CmdEntry :=
  [plainCmd 0x11000000#32, plainCmd 0x19000000#32,
   readCmd 0x1B000000#32 (.spins (if busy then .exhausted else .free 0)), plainCmd 0x1A000000#32]

theorem abort_eq_afterCommands (s : State) :
    abort s = afterCommands s { s.hw with stop := true, flags := Flags.clear } (abortLog s.hw.busBusy) := by
  rw [abort_eq, spinResult_eq]
  rfl

/-- ABORT and then HW_RESET leave the register block as HW_RESET alone does (R227). -/
theorem hwReset_abort (s : State) :
    hwReset (abort s) = afterCommands s (resetHw s.hw) (abortLog s.hw.busBusy ++ [plainCmd 0x18000000#32]) := by
  rw [abort_eq_afterCommands, hwReset, logCmd_setHw, afterCommands_afterCommands]
  rfl

/-! ### Each row of the master run on its own (30_encoding.md R106, R107) -/

/-- A row of the running master that its own bits fire runs its body. -/
theorem masterRow_runs {r : Row} {s t : State} (body : State → Flow Unit) (hrole : r.role = .master)
    (hrun : s.masterState ≠ .idle) (hfires : rowFires r (r.keyMatch.extractLsb' 0 9) s = true)
    (ht : (body s).state = t) : execRow r body s = .next t := by
  have hrouted : routedTo r.role s = true := by rw [hrole, routedTo_master]; exact hrun
  rw [← ht]
  exact if_pos (Bool.and_eq_true_iff.2 ⟨hrouted, hfires⟩)

section rows
variable {s : State}

/-! The error rows end the transaction in whatever state it is (R225 to R227). -/

theorem exec_mHwto (hrun : s.masterState ≠ .idle) (htimeout : s.cfg.hwTimeout ≠ none) :
    exec .mHwto s = .next (endMaster .timeout (afterCommands s (resetHw s.hw) [plainCmd 0x18000000#32])) := by
  refine masterRow_runs mHwto rfl hrun ?_ rfl
  rw [rowFires_mHwto, Option.isSome_iff_ne_none.2 htimeout]
  rfl

theorem exec_mNack (hrun : s.masterState ≠ .idle) :
    exec .mNack s =
      .next (endMaster .noAck
        (afterCommands s { s.hw with stop := true, flags := Flags.clear } (abortLog s.hw.busBusy))) :=
  masterRow_runs mNack rfl hrun (rowFires_mNack _ s) (congrArg (endMaster .noAck) (abort_eq_afterCommands s))

theorem exec_mBer (hrun : s.masterState ≠ .idle) :
    exec .mBer s =
      .next (endMaster .busError
        (afterCommands s (resetHw s.hw) (abortLog s.hw.busBusy ++ [plainCmd 0x18000000#32]))) :=
  masterRow_runs mBer rfl hrun (rowFires_mBer _ s) (congrArg (endMaster .busError) (hwReset_abort s))

/-! In Start the counts select the address row (R228 to R230). -/

section start
variable (hstart : s.masterState = .start)
include hstart

theorem exec_mDrStartQuick (htx : s.txCount = 0) (hrx : s.rxCount = 0) :
    exec .mDrStartQuick s =
      .next { afterCommands s { s.hw with stallEn := true, dataOut := addrQuick s.deviceAddress }
          [plainCmd 0x12000000#32, plainCmd (encodeWord (.hwSendAddr (addrQuick s.deviceAddress)))] with
        masterState := .quick } := by
  refine masterRow_runs mDrStartQuick rfl (hstart ▸ nofun) ?_ ?_
  · rw [rowFires_mDrStartQuick, hstart, htx, hrx]; rfl
  · rw [mDrStartQuick, hwSendAddr, hwStallEn, logCmd_setHw, logCmd_setHw, afterCommands_afterCommands]; rfl

theorem exec_mDrStartRead (htx : s.txCount = 0) (hrx : 0 < s.rxCount) :
    exec .mDrStartRead s =
      .next { afterCommands s { s.hw with stallEn := true, dataOut := addrRead s.deviceAddress }
          [plainCmd 0x12000000#32, plainCmd (encodeWord (.hwSendAddr (addrRead s.deviceAddress)))] with
        masterState := .read } := by
  refine masterRow_runs mDrStartRead rfl (hstart ▸ nofun) ?_ ?_
  · rw [rowFires_mDrStartRead, hstart, htx, decide_eq_true hrx]; rfl
  · rw [mDrStartRead, hwSendAddr, hwStallEn, logCmd_setHw, logCmd_setHw, afterCommands_afterCommands]; rfl

theorem exec_mDrStartWrite (htx : 0 < s.txCount) :
    exec .mDrStartWrite s =
      .next { afterCommands s { s.hw with dataOut := addrWrite s.deviceAddress }
          [plainCmd (encodeWord (.hwSendAddr (addrWrite s.deviceAddress)))] with
        masterState := .write } := by
  refine masterRow_runs mDrStartWrite rfl (hstart ▸ nofun) ?_ rfl
  rw [rowFires_mDrStartWrite, hstart, decide_eq_true htx]; rfl

end start

/-! After the address the state selects the segment's row (R231 to R236). -/

theorem exec_mStallQuick (hquick : s.masterState = .quick) :
    exec .mStallQuick s =
      .next (endMaster .ok (afterCommands s { s.hw with stop := true } [plainCmd 0x11000000#32])) := by
  refine masterRow_runs mStallQuick rfl (hquick ▸ nofun) ?_ rfl
  rw [rowFires_mStallQuick, hquick]; rfl

section write
variable (hwrite : s.masterState = .write)
include hwrite

theorem exec_mDrWrite (htx : s.txCount ≤ 256) :
    exec .mDrWrite s =
      .next (afterCommands s (armDma .tx s.txCount s.hw)
        [plainCmd (encodeWord (.hwDmaTx (BitVec.ofNat 16 s.txCount)))]) := by
  refine masterRow_runs mDrWrite rfl (hwrite ▸ nofun) ?_ ?_
  · rw [rowFires_mDrWrite, hwrite]; rfl
  · rw [mDrWrite, hwDmaTx, dmaLength_ofNat htx]; rfl

theorem exec_mDmaWriteStop (hrx : s.rxCount = 0) :
    exec .mDmaWriteStop s =
      .next (endMaster .ok (afterCommands s { s.hw with stop := true } [plainCmd 0x11000000#32])) := by
  refine masterRow_runs mDmaWriteStop rfl (hwrite ▸ nofun) ?_ rfl
  rw [rowFires_mDmaWriteStop, hwrite, hrx]; rfl

theorem exec_mDmaWriteRestart (hrx : 0 < s.rxCount) :
    exec .mDmaWriteRestart s =
      .next { afterCommands s { s.hw with stallEn := true, start := true, dataOut := addrRead s.deviceAddress }
          [plainCmd 0x12000000#32, plainCmd 0x10000000#32,
           plainCmd (encodeWord (.hwSendAddr (addrRead s.deviceAddress)))] with
        masterState := .read } := by
  refine masterRow_runs mDmaWriteRestart rfl (hwrite ▸ nofun) ?_ ?_
  · rw [rowFires_mDmaWriteRestart, hwrite, decide_eq_true hrx]; rfl
  · simp only [mDmaWriteRestart, hwSendAddr, hwStart, hwStallEn, logCmd_setHw, afterCommands_afterCommands]; rfl

end write

section read
variable (hread : s.masterState = .read)
include hread

theorem exec_mStallRead (hrx : s.rxCount ≤ 256) :
    exec .mStallRead s =
      .next (afterCommands s { armDma .rx s.rxCount s.hw with dmaNackLast := true, stallEn := false }
        [plainCmd 0x17000000#32, plainCmd (encodeWord (.hwDmaRx (BitVec.ofNat 16 s.rxCount))),
         plainCmd 0x13000000#32]) := by
  refine masterRow_runs mStallRead rfl (hread ▸ nofun) ?_ ?_
  · rw [rowFires_mStallRead, hread]; rfl
  · simp only [mStallRead, hwStallDis, hwDmaRx, hwDmaNackLast, dmaLength_ofNat hrx, logCmd_setHw,
      afterCommands_afterCommands]
    rfl

/-- The count received is the one read back from the DMA (R236). -/
theorem exec_mDmaRead :
    exec .mDmaRead s =
      .next { endMaster .ok (afterCommands s { s.hw with stop := true }
          [plainCmd 0x11000000#32, readCmd 0x24000000#32 (.count s.hw.dmaCount)]) with
        rxCount := s.hw.dmaCount } := by
  refine masterRow_runs mDmaRead rfl (hread ▸ nofun) ?_ ?_
  · rw [rowFires_mDmaRead, hread]; rfl
  · rw [mDmaRead, hwStop, logCmd_setHw]
    simp only [hwReadDmaCount, logCmd, afterCommands, List.append_assoc]
    rfl

end read

end rows

/-- Settles O47: the three error rows fire in every state of a running master. -/
theorem masterErrorRows : Obligations.MasterErrorRows := fun _ hrun =>
  ⟨exec_mHwto hrun, exec_mNack hrun, exec_mBer hrun⟩

/-- Settles O48: each address row fires in Start under its own guard on the counts. -/
theorem masterAddressRows : Obligations.MasterAddressRows := fun _ hstart =>
  ⟨exec_mDrStartQuick hstart, exec_mDrStartRead hstart, exec_mDrStartWrite hstart⟩

/-- Settles O49: a count of at most 256 is armed as it is, and every row fires in the state it is listed for. -/
theorem masterSegmentRows : Obligations.MasterSegmentRows := fun _ =>
  ⟨exec_mDrWrite, exec_mStallRead, exec_mStallQuick, exec_mDmaWriteStop, exec_mDmaWriteRestart, exec_mDmaRead⟩

end Sys2Proof.Machine

/-! PROOFS. The statements of the slave engine (44_slave_engine.md): the registration's two steps, each of its rows run
on its own, and what a violation or an unwritten cell leaves of a row. -/

namespace Sys2Proof.Machine

/-! ### The registration's first step (R262, R263) -/

section freeCaller
variable {s : State} (hfree : callerFree s) (hinit : s.initialized = true)
include hfree hinit

theorem exec_slaveRegister_refused {addr10 isNull : Bool} (hrefused : isNull = true ∨ addr10 = true) (addr7 : Addr7) :
    exec (.slaveRegister addr10 addr7 isNull) s =
      .next (setCaller s.issue.caller (returned .invalidConfig)
        { s with resultLog := s.resultLog ++
            [{ caller := s.issue.caller, op := .slaveRegister, kind := .invalidConfig }] }) := by
  have hconfig : configRefused (wordConfig addr10 addr7 isNull s.issue.callbacks) = true := by
    cases isNull
    · exact hrefused.resolve_left nofun
    · rfl
  refine (checks_pass hfree hinit .slaveRegister _ _).trans ((if_pos hconfig).trans ?_)
  rw [returnCall_enterCall, callFrame_free hfree]
  rfl

/-- A 7-bit configuration asks for the lock. -/
theorem exec_slaveRegister_of_free (addr7 : Addr7) :
    exec (.slaveRegister false addr7 false) s =
      .next (acquire s.issue.caller (enterCall s.issue.caller .slaveRegister
        (.register (some { addr7 := addr7, addr10 := false, cb := s.issue.callbacks })) s)) :=
  checks_pass hfree hinit .slaveRegister _ _

theorem exec_slaveUnregister_none (hslave : s.slaveConfig = none) :
    exec .slaveUnregister s =
      .next (setCaller s.issue.caller (returned .invalidState)
        { s with resultLog := s.resultLog ++
            [{ caller := s.issue.caller, op := .slaveUnregister, kind := .invalidState }] }) := by
  have hnone : s.slaveConfig.isNone = true := Option.isNone_iff_eq_none.2 hslave
  refine (checks_pass hfree hinit .slaveUnregister _ _).trans ((if_pos hnone).trans ?_)
  rw [returnCall_enterCall, callFrame_free hfree]
  rfl

section registered
variable (hslave : s.slaveConfig ≠ none)
include hslave

theorem exec_slaveUnregister_busy_master (hmaster : s.masterState ≠ .idle) :
    exec .slaveUnregister s =
      .next (setCaller s.issue.caller (returned .busy)
        { s with resultLog := s.resultLog ++
            [{ caller := s.issue.caller, op := .slaveUnregister, kind := .busy }] }) := by
  have hsome : ¬ s.slaveConfig.isNone = true := fun h => hslave (Option.isNone_iff_eq_none.1 h)
  refine (checks_pass hfree hinit .slaveUnregister _ _).trans ((if_neg hsome).trans ((if_pos hmaster).trans ?_))
  rw [returnCall_enterCall, callFrame_free hfree]
  rfl

/-- With a slave and an idle master it asks for the lock. -/
theorem exec_slaveUnregister_of_free (hmaster : s.masterState = .idle) :
    exec .slaveUnregister s =
      .next (acquire s.issue.caller (enterCall s.issue.caller .slaveUnregister .none s)) := by
  have hsome : ¬ s.slaveConfig.isNone = true := fun h => hslave (Option.isNone_iff_eq_none.1 h)
  exact (checks_pass hfree hinit .slaveUnregister _ _).trans ((if_neg hsome).trans (if_neg (not_not_intro hmaster)))

end registered

end freeCaller

/-- Settles O29: the checks before the lock return at once, and what passes them takes the lock or waits for it. -/
theorem registrationChecksThenLocks : Obligations.RegistrationChecksThenLocks := by
  refine ⟨fun s addr10 isNull addr7 hfree hinit => ⟨fun hrefused => ?_, fun hlock => ?_, fun hlock => ?_⟩,
    fun s hfree hinit => ⟨exec_slaveUnregister_none hfree hinit, exec_slaveUnregister_busy_master hfree hinit,
      fun hslave hmaster hlock => ?_, fun hslave hmaster hlock => ?_⟩⟩
  · exact exec_slaveRegister_refused hfree hinit hrefused addr7
  · rw [exec_slaveRegister_of_free hfree hinit, acquire_enterCall_lock_free hfree hlock]
  · rw [exec_slaveRegister_of_free hfree hinit, acquire_enterCall_lock_held hfree hlock]
  · rw [exec_slaveUnregister_of_free hfree hinit hslave hmaster, acquire_enterCall_lock_free hfree hlock]
  · rw [exec_slaveUnregister_of_free hfree hinit hslave hmaster, acquire_enterCall_lock_held hfree hlock]

/-! ### Its second step, under the lock (R262, R263) -/

theorem registerBody_registered {s : State} (a : Nat) (cfg : SlaveConfig) (h : s.slaveConfig ≠ none) :
    registerBody a cfg s = returnCall a .slaveRegister .busy (release s) :=
  if_pos (Option.isSome_iff_ne_none.2 h)

/-- Without one the address match is armed by two commands (R262). -/
theorem registerBody_arms {s : State} (a : Nat) (cfg : SlaveConfig) (h : s.slaveConfig = none) :
    registerBody a cfg s =
      returnCall a .slaveRegister .ok
        { afterCommands s { s.hw with matchEn := true, slaveAddr := some cfg.addr7, matchIrqEn := true }
            [plainCmd (encodeWord (.hwSetSlaveAddr true cfg.addr7)), plainCmd 0x20010000#32] with
          slaveConfig := some cfg, slaveState := .start, lock := .free } := by
  rw [registerBody, if_neg (by simp [h])]
  simp only [hwMatchIrq, hwSetSlaveAddr, logCmd_setHw, afterCommands_afterCommands]
  rfl

theorem unregisterBody_none {s : State} (a : Nat) (h : s.slaveConfig = none) :
    unregisterBody a s = returnCall a .slaveUnregister .invalidState (release s) :=
  if_pos (Option.isNone_iff_eq_none.2 h)

theorem unregisterBody_busy {s : State} (a : Nat) (hslave : s.slaveConfig ≠ none)
    (hbusy : s.masterState ≠ .idle ∨ midStream s.slaveState) :
    unregisterBody a s = returnCall a .slaveUnregister .busy (release s) :=
  (if_neg (by simpa using hslave)).trans (if_pos hbusy)

/-- Outside a transaction the match is disarmed and every flag cleared, by three commands (R263). -/
theorem unregisterBody_disarms {s : State} (a : Nat) (hslave : s.slaveConfig ≠ none) (hmaster : s.masterState = .idle)
    (hquiet : ¬ midStream s.slaveState) :
    unregisterBody a s =
      returnCall a .slaveUnregister .ok
        { afterCommands s
            { s.hw with matchEn := false, slaveAddr := none, matchIrqEn := false, flags := Flags.clear }
            [plainCmd 0x1F000000#32, plainCmd 0x20000000#32, plainCmd 0x260000FF#32] with
          slaveConfig := none, slaveState := .idle, lock := .free } := by
  rw [unregisterBody, if_neg (by simpa using hslave), if_neg (by simp [hmaster, hquiet])]
  simp only [hwAckStatus, hwMatchIrq, hwSetSlaveAddr, logCmd_setHw, afterCommands_afterCommands, ack_all]
  rfl

/-- Mid-stream is Write, Read or Quick (R264). -/
theorem midStream_iff (p : Phase) : midStream p = true ↔ p = .write ∨ p = .read ∨ p = .quick := by
  cases p <;> simp [midStream]

/-- Settles O39: a registered slave decides the first, and the slave's and the master's states the second. -/
theorem registrationArmsAndDisarms : Obligations.RegistrationArmsAndDisarms := by
  refine ⟨fun s a cfg hc => ?_, fun s a args hc => ?_⟩
  · rw [advanceCaller_register (by rw [hc]) (by rw [hc]) (by rw [hc])]
    refine ⟨fun hslave => ?_, fun hslave => ?_⟩
    · rw [registerBody_registered a cfg hslave]
      exact returnCall_of_atStep (t := release s) hc rfl .busy
    · rw [registerBody_arms a cfg hslave]
      exact returnCall_of_atStep hc (by rfl) .ok
  · rw [advanceCaller_unregister (by rw [hc]) (by rw [hc])]
    refine ⟨fun hslave => ?_, fun hslave hbusy => ?_, fun hslave hmaster hstate => ?_⟩
    · rw [unregisterBody_none a hslave]
      exact returnCall_of_atStep (t := release s) hc rfl .invalidState
    · rw [unregisterBody_busy a hslave (hbusy.imp_right (midStream_iff _).2)]
      exact returnCall_of_atStep (t := release s) hc rfl .busy
    · have hquiet : ¬ midStream s.slaveState := by rcases hstate with h | h <;> rw [h] <;> nofun
      rw [unregisterBody_disarms a hslave hmaster hquiet]
      exact returnCall_of_atStep hc (by rfl) .ok

/-! ### Each row of the slave run on its own (30_encoding.md R106, R107) -/

/-- A row that its own bits fire runs its body when the slave gets the interrupt. -/
theorem slaveRow_runs {r : Row} {s t : State} (body : State → Flow Unit) (hrole : r.role = .slave)
    (hactive : slaveActive s) (hfires : rowFires r (r.keyMatch.extractLsb' 0 9) s = true)
    (ht : (body s).state = t) : execRow r body s = .next t := by
  obtain ⟨hmaster, hslave, hstate⟩ := hactive
  have hrouted : routedTo r.role s = true := by
    rw [hrole, routedTo_slave]; exact ⟨hmaster, Option.isSome_iff_ne_none.2 hslave, hstate⟩
  rw [← ht]
  exact if_pos (Bool.and_eq_true_iff.2 ⟨hrouted, hfires⟩)

/-! The error rows reset in whatever state the slave is (R270, R271). -/

section errorRows
variable {s : State} (hactive : slaveActive s)
include hactive

theorem exec_sHwto (htimeout : s.cfg.hwTimeout ≠ none) :
    exec .sHwto s =
      .next { afterCommands s (resetHw s.hw) [plainCmd 0x18000000#32] with
        slaveState := .start, slaveErrors := s.slaveErrors ++ [.slaveTimeout] } := by
  refine slaveRow_runs sHwto rfl hactive ?_ rfl
  rw [rowFires_sHwto, Option.isSome_iff_ne_none.2 htimeout]
  rfl

theorem exec_sBer :
    exec .sBer s =
      .next { afterCommands s (resetHw s.hw) [plainCmd 0x18000000#32] with
        slaveState := .start,
        slaveErrors := if s.slaveState = .quick then s.slaveErrors else s.slaveErrors ++ [.slaveBusError] } := by
  refine slaveRow_runs sBer rfl hactive (rowFires_sBer _ s) ?_
  rw [sBer]
  split <;> rfl

end errorRows

/-- Settles O50: both rows fire in every state of an active slave. -/
theorem slaveErrorRows : Obligations.SlaveErrorRows := fun _ hactive => ⟨exec_sHwto hactive, exec_sBer hactive⟩

/-! ### Callbacks in sequence (R260, R261) -/

/-- `s` after callbacks that append `log` to the callback log and leave the oracle as `o`. -/
def afterCalls (s : State) (log : List CbEntry) (o : Oracle) : State :=
  { s with cbLog := s.cbLog ++ log, oracle := o }

theorem afterCalls_afterCalls (s : State) (log log' : List CbEntry) (o o' : Oracle) :
    afterCalls (afterCalls s log o) log' o' = afterCalls s (log ++ log') o' := by
  simp only [afterCalls, List.append_assoc]

theorem afterCalls_nil (s : State) : afterCalls s [] s.oracle = s := by
  rw [afterCalls, List.append_nil]

section callSlave
variable {s : State} {st : Nat} {b : Byte} {q : List CallbackAnswer} (c : Callback)

theorem callSlave_value (h : callbackAnswer s = .value st b) :
    callSlave c s =
      .go (st, b) (afterCalls s [{ call := c, answer := answerShape c st b }] (usedCallbackAnswer s).oracle) := by
  rw [callSlave, h, usedCallbackAnswer_eq]
  rfl

theorem callSlave_violation (h : callbackAnswer s = .violation) :
    callSlave c s =
      .halt (raiseFault .callbackReentry
        (afterCalls s [{ call := c, answer := .violation }] (usedCallbackAnswer s).oracle)) := by
  rw [callSlave, h, usedCallbackAnswer_eq]
  rfl

/-- A queued answer is the next one. -/
theorem callbackAnswer_queued {x : CallbackAnswer} (h : s.oracle.answerQ = x :: q) : callbackAnswer s = x := by
  rw [callbackAnswer, h]

/-- Using it leaves the rest of the queue. -/
theorem usedCallbackAnswer_queued {x : CallbackAnswer} (h : s.oracle.answerQ = x :: q) :
    (usedCallbackAnswer s).oracle = { s.oracle with answerQ := q } := by
  rw [usedCallbackAnswer, h]

theorem callSlave_queued_value (h : s.oracle.answerQ = .value st b :: q) :
    callSlave c s =
      .go (st, b) (afterCalls s [{ call := c, answer := answerShape c st b }] { s.oracle with answerQ := q }) := by
  rw [callSlave_value c (callbackAnswer_queued h), usedCallbackAnswer_queued h]

theorem callSlave_queued_violation (h : s.oracle.answerQ = .violation :: q) :
    callSlave c s =
      .halt (raiseFault .callbackReentry
        (afterCalls s [{ call := c, answer := .violation }] { s.oracle with answerQ := q })) := by
  rw [callSlave_violation c (callbackAnswer_queued h), usedCallbackAnswer_queued h]

end callSlave

theorem usedCallbackAnswer_oracle_congr {s t : State} (h : t.oracle = s.oracle) :
    (usedCallbackAnswer t).oracle = (usedCallbackAnswer s).oracle := by
  unfold usedCallbackAnswer
  rw [h]
  split <;> rfl

/-- What goes on after a call without more to do ends in the call's state. -/
theorem state_bind_go {α : Type} (x : Flow α) : (x.bind fun _ s => Flow.go () s).state = x.state := by
  cases x <;> rfl

/-! ### The rows of a receive that run no FLUSH (R272, R274, R278) -/

theorem hwReadDmaCount_eq (s : State) :
    hwReadDmaCount s = afterCommands s s.hw [readCmd 0x24000000#32 (.count s.hw.dmaCount)] := rfl

theorem hwReadData_eq (s : State) :
    hwReadData s = afterCommands s s.hw [readCmd 0x23000000#32 (.byte (dataByte s))] := rfl

section receiveRows
variable {s : State} (hactive : slaveActive s)
include hactive

theorem exec_sDmaRx_full (hwrite : s.slaveState = .write) (hfull : s.hw.dmaCount = 256) :
    exec .sDmaRx s =
      .next (afterCommands s { s.hw with ackMode := .nack }
        [readCmd 0x24000000#32 (.count 256), plainCmd 0x21010000#32]) := by
  refine slaveRow_runs sDmaRx rfl hactive ?_ ?_
  · rw [rowFires_sDmaRx, hwrite]; rfl
  · rw [sDmaRx, slaveWindow, if_pos hfull, hwReadDmaCount_eq, hfull, hwAckMode, logCmd_setHw,
      afterCommands_afterCommands]
    rfl

theorem exec_sDmaRx_open (hwrite : s.slaveState = .write) (hopen : s.hw.dmaCount ≠ 256) :
    exec .sDmaRx s = .next (hwReadDmaCount s) := by
  refine slaveRow_runs sDmaRx rfl hactive ?_ ?_
  · rw [rowFires_sDmaRx, hwrite]; rfl
  · rw [sDmaRx, slaveWindow, if_neg hopen]; rfl

theorem exec_sDrFill (hstate : s.slaveState ≠ .write) :
    exec .sDrFill s = .next (afterCommands s { s.hw with dataOut := 0xFF#8 } [plainCmd 0x22FF0000#32]) := by
  refine slaveRow_runs sDrFill rfl hactive ?_ rfl
  rw [rowFires_sDrFill, decide_eq_true hstate]; rfl

end receiveRows

/-- `s` when S_AM_RX calls `writeRequested`: acknowledging, the receive window armed, in Write (R274). -/
def receiving (s : State) : State :=
  { afterCommands s (armDma .rx 256 { s.hw with ackMode := .ack })
      [plainCmd 0x21000000#32, plainCmd 0x16000100#32] with slaveState := .write }

/-- The oracle answers there what it answers in `s`. -/
theorem callbackAnswer_receiving (s : State) : callbackAnswer (receiving s) = callbackAnswer s := rfl

theorem usedCallbackAnswer_receiving (s : State) :
    (usedCallbackAnswer (receiving s)).oracle = (usedCallbackAnswer s).oracle :=
  usedCallbackAnswer_oracle_congr rfl

section receiving
variable {s : State} (hactive : slaveActive s)
include hactive

theorem exec_sAmRx : exec .sAmRx s = .next (callSlave .writeRequested (receiving s)).state := by
  refine slaveRow_runs sAmRx rfl hactive (rowFires_sAmRx _ s) ?_
  have hlength : dmaLength (BitVec.ofNat 16 slaveWindow) = 256 := dmaLength_ofNat (Nat.le_refl 256)
  rw [sAmRx, state_bind_go]
  simp only [hwDmaRx, hwAckMode, hlength, logCmd_setHw, afterCommands_afterCommands]
  rfl

theorem exec_sAmRx_value {st : Nat} {b : Byte} (h : callbackAnswer s = .value st b) :
    exec .sAmRx s =
      .next (afterCalls (receiving s)
        [{ call := .writeRequested, answer := .done }] (usedCallbackAnswer s).oracle) := by
  rw [exec_sAmRx hactive, callSlave_value _ ((callbackAnswer_receiving s).trans h), usedCallbackAnswer_receiving]
  rfl

theorem exec_sAmRx_violation (h : callbackAnswer s = .violation) :
    exec .sAmRx s =
      .next (raiseFault .callbackReentry (afterCalls (receiving s)
        [{ call := .writeRequested, answer := .violation }] (usedCallbackAnswer s).oracle)) := by
  rw [exec_sAmRx hactive, callSlave_violation _ ((callbackAnswer_receiving s).trans h), usedCallbackAnswer_receiving]
  rfl

end receiving

/-- Settles O51: the count read decides S_DMA_RX, and S_AM_RX is armed before its callback answers. -/
theorem slaveReceiveRows : Obligations.SlaveReceiveRows := fun _ hactive =>
  ⟨exec_sDmaRx_full hactive, exec_sDmaRx_open hactive, fun _ _ => exec_sAmRx_value hactive, exec_sDrFill hactive⟩

/-! ### FLUSH (R268) -/

theorem receivedEntries_append {bytes : List Byte} {acks : List (Nat × Byte)} (h : acks.length = bytes.length)
    (b : Byte) (ack : Nat × Byte) :
    receivedEntries (bytes ++ [b]) (acks ++ [ack]) = receivedEntries bytes acks ++ [receivedEntry b ack.1] := by
  rw [receivedEntries, List.zip_append h.symm, List.map_append]
  rfl

theorem receivedEntries_calls {bytes : List Byte} {acks : List (Nat × Byte)} (h : acks.length = bytes.length) :
    (receivedEntries bytes acks).map CbEntry.call = bytes.map Callback.writeReceived := by
  have hcall : CbEntry.call ∘ (fun p : Byte × Nat × Byte => receivedEntry p.1 p.2.1) =
      Callback.writeReceived ∘ Prod.fst := rfl
  rw [receivedEntries, List.map_map, hcall, ← List.map_map, List.map_fst_zip h.ge]

/-- FLUSH delivers the written cells it comes to, each call with the next queued answer, and goes on after them. -/
theorem flushLoop_written (bytes : List Byte) (acks : List (Nat × Byte)) (q : List CallbackAnswer) (n i : Nat)
    (s : State) (hcells : ∀ j, j < bytes.length → bufRead s.rxBuffer (i + j) = bytes[j]?)
    (hacks : acks.length = bytes.length) (hq : s.oracle.answerQ = valueAnswers acks ++ q) :
    flushLoop (bytes.length + n) i s =
      flushLoop n (i + bytes.length)
        (afterCalls s (receivedEntries bytes acks) { s.oracle with answerQ := q }) := by
  induction bytes generalizing acks i s with
  | nil =>
    cases List.eq_nil_of_length_eq_zero hacks
    obtain rfl : s.oracle.answerQ = q := hq
    rw [List.length_nil, Nat.zero_add]
    exact congrArg _ (afterCalls_nil s).symm
  | cons b bytes ih =>
    obtain ⟨ack, acks, rfl⟩ := List.exists_of_length_succ acks hacks
    have hfirst : bufRead s.rxBuffer i = some b := hcells 0 (Nat.zero_lt_succ _)
    have hcall := callSlave_queued_value (.writeReceived b) (s := s) (q := valueAnswers acks ++ q) hq
    rw [List.length_cons, Nat.add_right_comm, flushLoop, hfirst]
    dsimp only
    rw [hcall, bind_go, ih acks (i + 1) _ _ (Nat.succ.inj hacks) rfl, afterCalls_afterCalls, Nat.add_assoc,
      Nat.add_comm 1]
    · rfl
    · intro j hj
      have hcell := hcells (j + 1) (Nat.succ_lt_succ hj)
      rwa [← Nat.add_assoc, Nat.add_right_comm] at hcell

/-- `s` after a FLUSH that delivered `bytes` with the answers `acks` and left `q` of the queue. -/
def flushed (s : State) (bytes : List Byte) (acks : List (Nat × Byte)) (q : List CallbackAnswer) : State :=
  afterCalls (hwReadDmaCount s) (receivedEntries bytes acks) { s.oracle with answerQ := q }

section flush
variable {s : State} {bytes : List Byte} {acks : List (Nat × Byte)} {q : List CallbackAnswer}
  (hcells : ∀ i, i < bytes.length → bufRead s.rxBuffer i = bytes[i]?) (hacks : acks.length = bytes.length)
include hcells hacks

/-- FLUSH has the written cells delivered before it goes on with what the DMA counted beyond them. -/
theorem flush_after_written {n : Nat} (hcount : s.hw.dmaCount = bytes.length + n)
    (hq : s.oracle.answerQ = valueAnswers acks ++ q) :
    flush s = flushLoop n bytes.length (flushed s bytes acks q) := by
  have hloop := flushLoop_written bytes acks q n 0 (hwReadDmaCount s)
    (fun j hj => by rw [Nat.zero_add]; exact hcells j hj) hacks hq
  rw [Nat.zero_add] at hloop
  rw [flush, hcount, hloop]
  rfl

theorem flush_delivers (hcount : bytes.length = s.hw.dmaCount) (hq : s.oracle.answerQ = valueAnswers acks ++ q) :
    flush s = .go () (flushed s bytes acks q) :=
  flush_after_written hcells hacks (n := 0) hcount.symm hq

section stops
variable (hcount : bytes.length < s.hw.dmaCount)
include hcount

theorem flush_unwritten (hcell : bufRead s.rxBuffer bytes.length = none)
    (hq : s.oracle.answerQ = valueAnswers acks ++ q) :
    flush s = .halt (raiseFault .unwrittenBufferRead (flushed s bytes acks q)) := by
  obtain ⟨n, hn⟩ := Nat.exists_eq_add_of_lt hcount
  have hcell' : bufRead (flushed s bytes acks q).rxBuffer bytes.length = none := hcell
  rw [flush_after_written hcells hacks (n := n + 1) hn hq, flushLoop, hcell']

theorem flush_violation {b : Byte} (hcell : bufRead s.rxBuffer bytes.length = some b)
    (hq : s.oracle.answerQ = valueAnswers acks ++ .violation :: q) :
    flush s =
      .halt (raiseFault .callbackReentry (afterCalls (flushed s bytes acks (.violation :: q))
        [{ call := .writeReceived b, answer := .violation }] { s.oracle with answerQ := q })) := by
  obtain ⟨n, hn⟩ := Nat.exists_eq_add_of_lt hcount
  have hcell' : bufRead (flushed s bytes acks (.violation :: q)).rxBuffer bytes.length = some b := hcell
  rw [flush_after_written hcells hacks (n := n + 1) hn hq, flushLoop, hcell']
  dsimp only
  rw [callSlave_queued_violation (.writeReceived b) (q := q) rfl]
  rfl

end stops

end flush

/-- Outside a receive there is nothing to deliver. -/
theorem flushIfWrite_skipped {s : State} (h : s.slaveState ≠ .write) : flushIfWrite s = .go () s := if_neg h

/-- In one it is a FLUSH. -/
theorem flushIfWrite_write {s : State} (h : s.slaveState = .write) : flushIfWrite s = flush s := if_pos h

/-- A row that begins with a FLUSH stops where the FLUSH stops. -/
theorem exec_flushRow_stops {s t : State} {i : Instr} (hactive : slaveActive s) (hwrite : s.slaveState = .write)
    (hi : i = .sAmTx ∨ i = .sDrOverflow ∨ i = .sStop) (hflush : flush s = .halt t) : exec i s = .next t := by
  rcases hi with rfl | rfl | rfl
  · refine slaveRow_runs sAmTx rfl hactive (rowFires_sAmTx _ s) ?_
    rw [sAmTx, flushIfWrite_write hwrite, hflush]; rfl
  · refine slaveRow_runs sDrOverflow rfl hactive ?_ ?_
    · rw [rowFires_sDrOverflow, hwrite]; rfl
    · rw [sDrOverflow, hflush]; rfl
  · refine slaveRow_runs sStop rfl hactive (rowFires_sStop _ s) ?_
    rw [sStop, flushIfWrite_write hwrite, hflush]; rfl

/-! ### The overflow byte (R277) -/

/-- `s` when S_DR_OVERFLOW delivers the overflow byte: after its FLUSH, the byte read. -/
def overflowRead (s : State) (bytes : List Byte) (acks : List (Nat × Byte)) (q : List CallbackAnswer) : State :=
  afterCalls
    (afterCommands s s.hw
      [readCmd 0x24000000#32 (.count s.hw.dmaCount), readCmd 0x23000000#32 (.byte (dataByte s))])
    (receivedEntries bytes acks) { s.oracle with answerQ := q }

theorem hwReadData_flushed (s : State) (bytes : List Byte) (acks : List (Nat × Byte)) (q : List CallbackAnswer) :
    hwReadData (flushed s bytes acks q) = overflowRead s bytes acks q := by
  rw [hwReadData_eq, flushed, hwReadDmaCount_eq]
  simp only [afterCommands, afterCalls, List.append_assoc]
  rfl

section overflow
variable {s : State} {bytes : List Byte} {acks : List (Nat × Byte)} {q : List CallbackAnswer}
  (hactive : slaveActive s) (hwrite : s.slaveState = .write) (hreceived : receivedBytes s bytes)
  (hacks : acks.length = bytes.length)
include hactive hwrite hreceived hacks

theorem exec_sDrOverflow (hq : s.oracle.answerQ = valueAnswers acks ++ q) :
    exec .sDrOverflow s =
      .next ((callSlave (.writeReceived (dataByte s)) (overflowRead s bytes acks q)).bind
        (fun _ t => Flow.go () { t with slaveState := .start })).state := by
  refine slaveRow_runs sDrOverflow rfl hactive ?_ ?_
  · rw [rowFires_sDrOverflow, hwrite]; rfl
  · have hbyte : dataByte (flushed s bytes acks q) = dataByte s := rfl
    rw [sDrOverflow, flush_delivers hreceived.2 hacks hreceived.1 hq, bind_go, hwReadData_flushed, hbyte]

theorem exec_sDrOverflow_delivers {ack : Nat × Byte} (hq : s.oracle.answerQ = valueAnswers (acks ++ [ack]) ++ q) :
    exec .sDrOverflow s =
      .next { afterCalls
          (afterCommands s s.hw
            [readCmd 0x24000000#32 (.count s.hw.dmaCount), readCmd 0x23000000#32 (.byte (dataByte s))])
          (receivedEntries (bytes ++ [dataByte s]) (acks ++ [ack])) { s.oracle with answerQ := q } with
        slaveState := .start } := by
  rw [valueAnswers, List.map_append, List.append_assoc] at hq
  rw [exec_sDrOverflow hactive hwrite hreceived hacks hq, callSlave_queued_value _ rfl, overflowRead,
    afterCalls_afterCalls, receivedEntries_append hacks]
  rfl

theorem exec_sDrOverflow_violation (hq : s.oracle.answerQ = valueAnswers acks ++ .violation :: q) :
    exec .sDrOverflow s =
      .next (raiseFault .callbackReentry (afterCalls (overflowRead s bytes acks (.violation :: q))
        [{ call := .writeReceived (dataByte s), answer := .violation }] { s.oracle with answerQ := q })) := by
  rw [exec_sDrOverflow hactive hwrite hreceived hacks hq, callSlave_queued_violation _ rfl]
  rfl

end overflow

/-- Settles O53: the overflow byte is the one HW_READ_DATA gives, and its answer is the last of those queued. -/
theorem slaveOverflowDeliversEveryByte : Obligations.SlaveOverflowDeliversEveryByte := by
  intro s bytes acks q hactive hwrite hreceived hacks hq
  obtain rfl | ⟨acks, ack, rfl⟩ := List.eq_nil_or_concat' acks
  · cases hacks
  · have hlength : acks.length = bytes.length := by simpa using hacks
    exact ⟨dataByte s, fun c hc => dataByte_supplied hc,
      exec_sDrOverflow_delivers hactive hwrite hreceived hlength hq⟩

/-! ### The stop (R279) -/

section stop
variable {s u : State} (hactive : slaveActive s)
include hactive

/-- After its FLUSH, S_STOP of an active transaction is its one call. -/
theorem exec_sStop_active (hflush : flushIfWrite s = .go () u) (hmid : midStream u.slaveState) :
    exec .sStop s =
      .next ((callSlave .stop u).bind (fun _ t => Flow.go () { t with slaveState := .start })).state := by
  refine slaveRow_runs sStop rfl hactive (rowFires_sStop _ s) ?_
  rw [sStop, hflush, bind_go, stopIfActive, if_pos hmid]
  cases callSlave .stop u <;> rfl

section received
variable {bytes : List Byte} {acks : List (Nat × Byte)} {q : List CallbackAnswer} (hwrite : s.slaveState = .write)
  (hreceived : receivedBytes s bytes) (hacks : acks.length = bytes.length)
include hwrite hreceived hacks

/-- A receive is active until the stop, so the call follows its FLUSH. -/
theorem exec_sStop_received (hq : s.oracle.answerQ = valueAnswers acks ++ q) :
    exec .sStop s =
      .next ((callSlave .stop (flushed s bytes acks q)).bind
        (fun _ t => Flow.go () { t with slaveState := .start })).state := by
  have hflush := (flushIfWrite_write hwrite).trans (flush_delivers hreceived.2 hacks hreceived.1 hq)
  have hmid : midStream s.slaveState = true := (midStream_iff _).2 (.inl hwrite)
  exact exec_sStop_active hactive hflush hmid

theorem exec_sStop_received_value {st : Nat} {b : Byte}
    (hq : s.oracle.answerQ = valueAnswers acks ++ .value st b :: q) :
    exec .sStop s =
      .next { afterCalls (flushed s bytes acks (.value st b :: q)) [{ call := .stop, answer := .done }]
          { s.oracle with answerQ := q } with
        slaveState := .start } := by
  rw [exec_sStop_received hactive hwrite hreceived hacks hq, callSlave_queued_value _ rfl]
  rfl

theorem exec_sStop_received_violation (hq : s.oracle.answerQ = valueAnswers acks ++ .violation :: q) :
    exec .sStop s =
      .next (raiseFault .callbackReentry (afterCalls (flushed s bytes acks (.violation :: q))
        [{ call := .stop, answer := .violation }] { s.oracle with answerQ := q })) := by
  rw [exec_sStop_received hactive hwrite hreceived hacks hq, callSlave_queued_violation _ rfl]
  rfl

end received

section sending
variable (hsending : s.slaveState = .read ∨ s.slaveState = .quick)
include hsending

/-- In Read and Quick there is nothing to deliver before it. -/
theorem exec_sStop_sending :
    exec .sStop s =
      .next ((callSlave .stop s).bind (fun _ t => Flow.go () { t with slaveState := .start })).state := by
  have hwrite : s.slaveState ≠ .write := by rcases hsending with h | h <;> rw [h] <;> nofun
  exact exec_sStop_active hactive (flushIfWrite_skipped hwrite) ((midStream_iff _).2 (.inr hsending))

theorem exec_sStop_sending_value {st : Nat} {b : Byte} (h : callbackAnswer s = .value st b) :
    exec .sStop s =
      .next { afterCalls s [{ call := .stop, answer := .done }] (usedCallbackAnswer s).oracle with
        slaveState := .start } := by
  rw [exec_sStop_sending hactive hsending, callSlave_value _ h]
  rfl

theorem exec_sStop_sending_violation (h : callbackAnswer s = .violation) :
    exec .sStop s =
      .next (raiseFault .callbackReentry
        (afterCalls s [{ call := .stop, answer := .violation }] (usedCallbackAnswer s).oracle)) := by
  rw [exec_sStop_sending hactive hsending, callSlave_violation _ h]
  rfl

end sending

/-- A stop in Start ends no transaction. -/
theorem exec_sStop_start (hstart : s.slaveState = .start) : exec .sStop s = .next s := by
  refine slaveRow_runs sStop rfl hactive (rowFires_sStop _ s) ?_
  have hmid : ¬ midStream s.slaveState = true := by rw [hstart]; nofun
  rw [sStop, flushIfWrite_skipped (hstart ▸ nofun), bind_go, stopIfActive, if_neg hmid]
  show { s with slaveState := .start } = s
  rw [← hstart]

end stop

/-- Settles O54: a receive is flushed before the call, Read and Quick only call, and Start does neither. -/
theorem slaveStopEndsTheTransaction : Obligations.SlaveStopEndsTheTransaction := by
  intro s hactive
  refine ⟨fun bytes acks st b q hwrite hreceived hacks hq => ?_, fun st b hsending hanswer => ?_,
    exec_sStop_start hactive⟩
  · rw [exec_sStop_received_value hactive hwrite hreceived hacks hq]; rfl
  · exact exec_sStop_sending_value hactive hsending hanswer

/-! ### The reply prefill (R275) -/

/-- The callback that is asked for the reply byte of a slot. -/
def slotCall : Nat → Callback
  | 0 => .readRequested
  | k + 1 => .readProcessed (k + 1)

/-- The prefill from slot `k`, at most `fuel` more slots: the first slot's call and the loop over the others in one. -/
def prefillSlots : Nat → Nat → State → Flow Nat
  | 0, k, s => .go k s
  | fuel + 1, k, s =>
    (callSlave (slotCall k) s).bind (fun r s =>
      if r.1 ≠ 0 then .go k s else prefillSlots fuel (k + 1) { s with txBuffer := bufWrite s.txBuffer k r.2 })

theorem prefillLoop_eq_prefillSlots (fuel k : Nat) (s : State) :
    prefillLoop fuel (k + 1) s = prefillSlots fuel (k + 1) s := by
  induction fuel generalizing k s with
  | zero => rfl
  | succ fuel ih => simp only [prefillLoop, prefillSlots, slotCall, ih]

theorem prefill_eq_prefillSlots (s : State) : prefill s = prefillSlots slaveWindow 0 s := by
  simp only [prefill, prefillLoop_eq_prefillSlots _ 0]
  rfl

/-- The log entries of the calls that gave `replies` for the slots from `k` on. -/
def replyEntries : Nat → List Byte → List CbEntry
  | _, [] => []
  | k, b :: bs => { call := slotCall k, answer := .reply 0 b } :: replyEntries (k + 1) bs

theorem replyEntries_calls (k : Nat) (replies : List Byte) :
    (replyEntries k replies).map CbEntry.call = (List.range' k replies.length).map slotCall := by
  induction replies generalizing k with
  | nil => rfl
  | cons b replies ih => rw [List.length_cons, List.range'_succ, replyEntries, List.map_cons, List.map_cons, ih]

/-- The calls for the first slots are `readRequested` once and `readProcessed` for each further slot. -/
theorem slotCalls (n : Nat) :
    (List.range' 0 (n + 1)).map slotCall = .readRequested :: (List.range' 1 n).map .readProcessed := by
  have hrest : ∀ k ∈ List.range' 1 n, slotCall k = .readProcessed k := by
    intro k hk
    obtain ⟨j, rfl⟩ := Nat.exists_eq_succ_of_ne_zero (Nat.one_le_iff_ne_zero.1 (List.mem_range'_1.1 hk).1)
    rfl
  rw [List.range'_succ, List.map_cons, List.map_congr_left hrest]
  rfl

/-- Answers with status 0, which give the reply bytes (R275). -/
abbrev replyAnswers (replies : List Byte) : List CallbackAnswer := valueAnswers (replies.map (fun b => (0, b)))

/-- `s` after the slots from `k` on were given `replies` and `q` is left of the queue. -/
def prefilled (s : State) (k : Nat) (replies : List Byte) (q : List CallbackAnswer) : State :=
  { afterCalls s (replyEntries k replies) { s.oracle with answerQ := q } with
    txBuffer := bufWriteList s.txBuffer k replies }

/-- The slots from `k` on are slot `k` and those after it. -/
theorem prefilled_cons (s : State) (k : Nat) (b : Byte) (replies : List Byte) (q q' : List CallbackAnswer) :
    prefilled
        { afterCalls s [{ call := slotCall k, answer := .reply 0 b }] { s.oracle with answerQ := q' } with
          txBuffer := bufWrite s.txBuffer k b }
        (k + 1) replies q =
      prefilled s k (b :: replies) q := by
  simp only [prefilled, afterCalls, List.append_assoc]
  rfl

/-- A slot's call records status and byte, whichever callback it is (R260). -/
theorem answerShape_slotCall (k st : Nat) (b : Byte) : answerShape (slotCall k) st b = .reply st b := by
  cases k <;> rfl

/-- The prefill writes every byte it is given to its slot, and goes on with the next. -/
theorem prefillSlots_replies (replies : List Byte) (q : List CallbackAnswer) (fuel k : Nat) (s : State)
    (hq : s.oracle.answerQ = replyAnswers replies ++ q) :
    prefillSlots (replies.length + fuel) k s = prefillSlots fuel (k + replies.length) (prefilled s k replies q) := by
  induction replies generalizing k s with
  | nil =>
    obtain rfl : s.oracle.answerQ = q := hq
    rw [List.length_nil, Nat.zero_add]
    exact congrArg _ (afterCalls_nil s).symm
  | cons b replies ih =>
    have hcall := callSlave_queued_value (slotCall k) (s := s) (q := replyAnswers replies ++ q) hq
    rw [List.length_cons, Nat.add_right_comm, prefillSlots, hcall, bind_go, if_neg (by simp), ih (k + 1) _ rfl,
      Nat.add_assoc, Nat.add_comm 1, answerShape_slotCall]
    exact congrArg _ (prefilled_cons s k b replies q _)

section prefill
variable {s : State} {replies : List Byte} {q : List CallbackAnswer}

theorem prefill_full (hlength : replies.length = 256) (hq : s.oracle.answerQ = replyAnswers replies ++ q) :
    prefill s = .go replies.length (prefilled s 0 replies q) := by
  have hslots := prefillSlots_replies replies q 0 0 s hq
  rw [prefill_eq_prefillSlots, slaveWindow, ← hlength]
  rw [Nat.zero_add] at hslots
  exact hslots

section unfilled
variable (hlength : replies.length < 256)
include hlength

/-- After the slots given, the prefill asks for the next. -/
theorem prefill_after_replies (hq : s.oracle.answerQ = replyAnswers replies ++ q) :
    ∃ fuel, prefill s = prefillSlots (fuel + 1) replies.length (prefilled s 0 replies q) := by
  obtain ⟨fuel, hfuel⟩ := Nat.exists_eq_add_of_lt hlength
  have hslots := prefillSlots_replies replies q (fuel + 1) 0 s hq
  rw [Nat.zero_add] at hslots
  exact ⟨fuel, by rw [prefill_eq_prefillSlots, slaveWindow, hfuel]; exact hslots⟩

theorem prefill_ended {st : Nat} {b : Byte} (hst : st ≠ 0)
    (hq : s.oracle.answerQ = replyAnswers replies ++ .value st b :: q) :
    prefill s =
      .go replies.length (afterCalls (prefilled s 0 replies (.value st b :: q))
        [{ call := slotCall replies.length, answer := .reply st b }] { s.oracle with answerQ := q }) := by
  obtain ⟨fuel, hprefill⟩ := prefill_after_replies hlength hq
  rw [hprefill, prefillSlots, callSlave_queued_value _ rfl, bind_go, if_pos hst, answerShape_slotCall]
  rfl

theorem prefill_violation (hq : s.oracle.answerQ = replyAnswers replies ++ .violation :: q) :
    prefill s =
      .halt (raiseFault .callbackReentry (afterCalls (prefilled s 0 replies (.violation :: q))
        [{ call := slotCall replies.length, answer := .violation }] { s.oracle with answerQ := q })) := by
  obtain ⟨fuel, hprefill⟩ := prefill_after_replies hlength hq
  rw [hprefill, prefillSlots, callSlave_queued_violation _ rfl]
  rfl

end unfilled

end prefill

/-! ### The transmission (R273, R276) -/

/-- What the FLUSH of S_AM_TX and S_STOP logs: the count read, in a receive. -/
def flushLog (s : State) : List CmdEntry :=
  if s.slaveState = .write then [readCmd 0x24000000#32 (.count s.hw.dmaCount)] else []

/-- `s` after it, whether it delivered `bytes` with the answers `acks` or there was no receive; `q` is left of the
queue. -/
def delivered (s : State) (bytes : List Byte) (acks : List (Nat × Byte)) (q : List CallbackAnswer) : State :=
  afterCalls (afterCommands s s.hw (flushLog s)) (receivedEntries bytes acks) { s.oracle with answerQ := q }

theorem flushIfWrite_delivers {s : State} {bytes : List Byte} {acks : List (Nat × Byte)} {q : List CallbackAnswer}
    (hreceived : s.slaveState = .write → receivedBytes s bytes) (hnone : s.slaveState ≠ .write → bytes = [])
    (hacks : acks.length = bytes.length) (hq : s.oracle.answerQ = valueAnswers acks ++ q) :
    flushIfWrite s = .go () (delivered s bytes acks q) := by
  by_cases hwrite : s.slaveState = .write
  · obtain ⟨hcount, hcells⟩ := hreceived hwrite
    rw [flushIfWrite_write hwrite, flush_delivers hcells hacks hcount hq, delivered, flushLog, if_pos hwrite]
    rfl
  · obtain rfl := hnone hwrite
    cases List.eq_nil_of_length_eq_zero hacks
    obtain rfl : s.oracle.answerQ = q := hq
    rw [flushIfWrite_skipped hwrite, delivered, flushLog, if_neg hwrite, afterCommands, List.append_nil]
    exact congrArg _ (afterCalls_nil s).symm

/-- The calls of the replies and of the slot after them. -/
theorem replyEntries_next_calls (replies : List Byte) (ans : CbAnswer) :
    (replyEntries 0 replies ++ [CbEntry.mk (slotCall replies.length) ans]).map CbEntry.call =
      .readRequested :: (List.range' 1 replies.length).map .readProcessed := by
  rw [List.map_append, replyEntries_calls, ← slotCalls, List.range'_1_concat, List.map_append, Nat.zero_add]
  rfl

/-- A further call leaves the slots as they are. -/
theorem afterCalls_prefilled (s : State) (replies : List Byte) (q : List CallbackAnswer) (log : List CbEntry)
    (o : Oracle) :
    afterCalls (prefilled s 0 replies q) log o =
      { afterCalls s (replyEntries 0 replies ++ log) o with txBuffer := bufWriteList s.txBuffer 0 replies } := by
  rw [← afterCalls_afterCalls]
  rfl

/-- The prefill gives as many bytes as were given it, all slots or up to a status that is not 0, and has called once
for each and for the one not given. -/
theorem prefill_gives {s : State} {replies : List Byte} {tail : List CallbackAnswer}
    (hend : replies.length = 256 ∨
      replies.length < 256 ∧ ∃ st b q, st ≠ 0 ∧ tail = CallbackAnswer.value st b :: q)
    (hq : s.oracle.answerQ = replyAnswers replies ++ tail) :
    ∃ log o, prefill s = .go replies.length
        { afterCalls s log o with txBuffer := bufWriteList s.txBuffer 0 replies } ∧
      log.map CbEntry.call = .readRequested :: (List.range' 1 (min replies.length 255)).map .readProcessed := by
  rcases hend with hfull | ⟨hlength, st, b, q, hst, rfl⟩
  · refine ⟨_, _, prefill_full hfull hq, ?_⟩
    rw [replyEntries_calls, hfull]
    exact slotCalls 255
  · refine ⟨_, _, (prefill_ended hlength hst hq).trans (congrArg _ (afterCalls_prefilled ..)), ?_⟩
    rw [replyEntries_next_calls, Nat.min_eq_left (Nat.le_of_lt_succ hlength)]

/-- With no reply byte the slave goes to Quick; else the bytes' transmission is armed. -/
theorem txDecision_replies {replies : List Byte} (hlength : replies.length ≤ 256) (s : State) :
    txDecision replies.length s = { s with
      txCount := replies.length
      slaveState := if replies = [] then .quick else .read
      hw := if replies = [] then s.hw else armDma .tx replies.length s.hw
      cmdLog := s.cmdLog ++
        if replies = [] then [] else [plainCmd (encodeWord (.hwDmaTx (BitVec.ofNat 16 replies.length)))] } := by
  cases replies with
  | nil => simp [txDecision]
  | cons b replies =>
    rw [txDecision, if_neg (by simp), hwDmaTx, dmaLength_ofNat hlength]
    rfl

/-- The cells from 0 on are the bytes written there. -/
theorem bufRead_bufWriteList_zero (buf : List Host.Cell) {bytes : List Byte} (h : bytes.length ≤ 256) (i : Nat) :
    bufRead (bufWriteList buf 0 bytes) i = if i < bytes.length then bytes[i]? else bufRead buf i := by
  rw [bufRead_bufWriteList _ _ _ (by rwa [Nat.zero_add])]
  simp

/-- What the FLUSH delivered is called before anything after it. -/
theorem delivered_calls {bytes : List Byte} {acks : List (Nat × Byte)} (hacks : acks.length = bytes.length)
    (s : State) (q : List CallbackAnswer) :
    (delivered s bytes acks q).cbLog.map CbEntry.call =
      s.cbLog.map CbEntry.call ++ bytes.map Callback.writeReceived := by
  rw [← receivedEntries_calls hacks, ← List.map_append]
  rfl

section transmit
variable {s : State} (hactive : slaveActive s)
include hactive

theorem exec_sAmTx_replies {u v : State} {replies : List Byte} (hlength : replies.length ≤ 256)
    (hflush : flushIfWrite s = .go () u) (hprefill : prefill u = .go replies.length v) :
    exec .sAmTx s = .next { v with
      txCount := replies.length
      slaveState := if replies = [] then .quick else .read
      hw := if replies = [] then v.hw else armDma .tx replies.length v.hw
      cmdLog := v.cmdLog ++
        if replies = [] then [] else [plainCmd (encodeWord (.hwDmaTx (BitVec.ofNat 16 replies.length)))] } := by
  refine slaveRow_runs sAmTx rfl hactive (rowFires_sAmTx _ s) ?_
  rw [sAmTx, hflush, bind_go, hprefill, bind_go, txDecision_replies hlength]
  rfl

theorem exec_sAmTx_stops {u v : State} (hflush : flushIfWrite s = .go () u) (hprefill : prefill u = .halt v) :
    exec .sAmTx s = .next v := by
  refine slaveRow_runs sAmTx rfl hactive (rowFires_sAmTx _ s) ?_
  rw [sAmTx, hflush, bind_go, hprefill]
  rfl

end transmit

/-- Settles O52: the FLUSH, the prefill and the decision follow each other on the state each leaves. -/
theorem slaveTransmitPrefillsTheReply : Obligations.SlaveTransmitPrefillsTheReply := by
  intro s bytes acks replies tail hactive hreceived hnone hacks hlength hend hq
  rw [List.append_assoc] at hq
  have hflush := flushIfWrite_delivers hreceived hnone hacks hq
  have hend' : replies.length = 256 ∨
      replies.length < 256 ∧ ∃ st b q, st ≠ 0 ∧ tail = CallbackAnswer.value st b :: q :=
    (Nat.eq_or_lt_of_le hlength).imp_right fun hlt => ⟨hlt, hend.resolve_left hlt.ne⟩
  obtain ⟨log, o, hprefill, hlog⟩ := prefill_gives (s := delivered s bytes acks _) hend' rfl
  refine ⟨_, exec_sAmTx_replies hactive hlength hflush hprefill, ?_, ?_, rfl, rfl⟩
  · exact bufRead_bufWriteList_zero s.txBuffer hlength
  · show ((delivered s bytes acks _).cbLog ++ log).map CbEntry.call = _
    rw [List.map_append, delivered_calls hacks, hlog, List.append_cons]

/-- Settles O55: each row is followed to the call or the cell at which it stops. -/
theorem slaveRowsStopAtAFault : Obligations.SlaveRowsStopAtAFault := by
  intro s hactive
  refine ⟨exec_sAmRx_violation hactive, fun i bytes acks q hi hwrite hcount hcells hacks => ⟨fun hcell hq => ?_,
    fun b hcell hq => ?_⟩, fun bytes acks q hwrite hreceived hacks hq => ⟨?_, dataByte s, ?_, ?_⟩,
    exec_sStop_sending_violation hactive, fun bytes acks replies q hreceived hnone hacks hlength hq => ?_⟩
  · rw [exec_flushRow_stops hactive hwrite hi (flush_unwritten hcells hacks hcount hcell hq)]; rfl
  · rw [exec_flushRow_stops hactive hwrite hi (flush_violation hcells hacks hcount hcell hq)]; rfl
  · rw [exec_sStop_received_violation hactive hwrite hreceived hacks hq]; rfl
  · exact fun c hc => dataByte_supplied hc
  · rw [exec_sDrOverflow_violation hactive hwrite hreceived hacks hq]; rfl
  · rw [List.append_assoc] at hq
    have hflush := flushIfWrite_delivers hreceived hnone hacks hq
    have hprefill := prefill_violation (s := delivered s bytes acks _) (q := q) hlength rfl
    rw [afterCalls_prefilled] at hprefill
    refine ⟨_, exec_sAmTx_stops hactive hflush hprefill, ?_, ?_, rfl⟩
    · exact bufRead_bufWriteList_zero s.txBuffer (Nat.le_of_lt hlength)
    · show ((delivered s bytes acks _).cbLog ++ _).map CbEntry.call = _
      rw [List.map_append, delivered_calls hacks, replyEntries_next_calls, List.append_cons]

end Sys2Proof.Machine

/-! PROOFS. The dispatcher's statements (45_dispatcher.md): the spurious guard, and the one row an interrupt of one flag
runs. -/

namespace Sys2Proof.Machine

/-! ### The spurious guard (R314) -/

/-- An acknowledge writes the flags alone, and logs its word (40_hw_commands.md R152). -/
theorem hwAckStatus_eq (m : Byte) (s : State) :
    hwAckStatus m s =
      { s with
        hw := { s.hw with flags := s.hw.flags.ack m },
        cmdLog := s.cmdLog ++ [plainCmd (0x26#8 ++ 0#8 ++ (0#8 ++ m))] } := rfl

/-- The slave engine does not get the interrupt without a slave, or in Idle (R311). -/
theorem routedTo_slave_eq_false {s : State} (h : s.slaveConfig = none ∨ s.slaveState = .idle) :
    routedTo .slave s = false := by
  refine Bool.eq_false_iff.2 fun hrouted => ?_
  obtain ⟨-, hslave, hstate⟩ := (routedTo_slave s).1 hrouted
  exact h.elim (Option.isSome_iff_ne_none.1 hslave) hstate

theorem dispatchIrq_spurious {s : State} (hmaster : s.masterState = .idle) (hslave : routedTo .slave s = false) :
    dispatchIrq s = hwAckStatus 0xFF#8 (hwReadStatus s) := by
  have hmaster' : ¬ routedTo .master (hwReadStatus s) = true := by rw [routedTo_master]; exact not_not.2 hmaster
  have hslave' : ¬ routedTo .slave (hwReadStatus s) = true := Bool.eq_false_iff.1 hslave
  unfold dispatchIrq
  dsimp only
  rw [if_neg hmaster', if_neg hslave']

/-- Settles O40: the guard acknowledges every flag, and with none set no interrupt is pending. -/
theorem spuriousInterruptClearsTheFlags : Obligations.SpuriousInterruptClearsTheFlags := by
  intro s hready hmaster hslave
  refine ⟨_, exec_irq_ready hready, ?_, ?_⟩ <;>
    rw [dispatchIrq_spurious hmaster (routedTo_slave_eq_false hslave), hwAckStatus_eq, ack_all]
  · exact irqPending_of_clear rfl
  · simp only [hwReadStatus, logCmd, List.append_assoc]; rfl

/-! ### A row as an instruction is its row of the engine's groups (30_encoding.md R107; R311) -/

/-- The event groups of the engine of a role. -/
def engineGroups : Role → List (List (Row × (State → Flow Unit)))
  | .master => masterGroups
  | .slave => slaveGroups

/-- The dispatcher runs the groups of the engine it routes to. -/
theorem dispatchIrq_of_routed {role : Role} {s : State} (h : routedTo role s = true) :
    dispatchIrq s = ackSnapshot (snapshot s) (runGroups (snapshot s) (engineGroups role) (hwReadStatus s)) := by
  cases role
  case master => exact dispatchIrq_master ((routedTo_master s).1 h)
  case slave => exact dispatchIrq_slave h

theorem engineGroups_row (role : Role) :
    ∀ p ∈ (engineGroups role).flatten, p.1 ∈ rowTable ∧ p.1.role = role := by
  cases role <;> decide

/-- The groups of an engine have different numbers. -/
theorem engineGroups_pairwise (role : Role) :
    (engineGroups role).Pairwise fun g g' => ∀ p ∈ g, ∀ q ∈ g', p.1.group ≠ q.1.group := by
  cases role <;> decide

/-- An engine has one body for each of its rows. -/
theorem engineGroups_body_unique {role : Role} {p q : Row × (State → Flow Unit)}
    (hp : p ∈ (engineGroups role).flatten) (hq : q ∈ (engineGroups role).flatten) (h : p.1 = q.1) : p = q := by
  have hnodup : ((engineGroups role).flatten.map Prod.fst).Nodup := by cases role <;> decide
  exact List.inj_on_of_nodup_map hnodup hp hq h

/-- A row's instruction runs the body that the row has in its engine's groups. -/
theorem exec_eq_engineRow {i : Instr} {r : Row} (h : rowOf? i = some r) :
    ∃ body, exec i = execRow r body ∧ (r, body) ∈ (engineGroups r.role).flatten := by
  cases i <;> cases h <;> refine ⟨_, rfl, ?_⟩
  case mHwto | mNack | mBer | mDrStartQuick | mDrStartRead | mDrStartWrite | mDrWrite | mStallRead | mStallQuick |
      mDmaWriteStop | mDmaWriteRestart | mDmaRead =>
    show _ ∈ masterGroups.flatten
    simp [masterGroups_flatten]
  case sHwto | sBer | sDmaRx | sAmTx | sAmRx | sDrOverflow | sDrFill | sStop =>
    show _ ∈ slaveGroups.flatten
    simp [slaveGroups_flatten]

/-! ### A row that fires for the snapshot fires for its own bits (30_encoding.md R106) -/

theorem keyMatch_bits_covered : ∀ r ∈ rowTable,
    (r.keyMatch.extractLsb' 0 9 &&& r.keyMask.extractLsb' 0 9 == r.keyMatch.extractLsb' 0 9) = true := by decide

/-- The snapshot's bits under the row's mask are the row's own. -/
theorem bits_of_rowFires {r : Row} {snap : Snapshot} {s : State} (h : rowFires r snap s = true) :
    (snap &&& r.keyMask.extractLsb' 0 9 == r.keyMatch.extractLsb' 0 9) = true := by
  rw [rowFires, covers_packKey, Bool.and_eq_true, Bool.and_eq_true] at h
  exact h.1.2

/-- The snapshot's other bits do not matter to a row that fires. -/
theorem rowFires_ownBits {r : Row} (hr : r ∈ rowTable) {snap : Snapshot} {s : State} (h : rowFires r snap s = true) :
    rowFires r (r.keyMatch.extractLsb' 0 9) s = true := by
  rw [rowFires, covers_packKey, Bool.and_eq_true, Bool.and_eq_true] at h ⊢
  obtain ⟨⟨hhead, -⟩, hguard⟩ := h
  exact ⟨⟨hhead, keyMatch_bits_covered r hr⟩, hguard⟩

theorem execRow_of_fires {r : Row} {s : State} (body : State → Flow Unit) (hr : r ∈ rowTable)
    (hrouted : routedTo r.role s = true) {snap : Snapshot} (hfires : rowFires r snap s = true) :
    execRow r body s = .next (body s).state :=
  if_pos (Bool.and_eq_true_iff.2 ⟨hrouted, rowFires_ownBits hr hfires⟩)

/-! ### One flag is the flag of one event group (30_encoding.md R107) -/

/-- The flags among a row's own bits. -/
def triggerFlags (r : Row) : Byte := flagMask (r.keyMatch.extractLsb' 0 9)

/-- The row that one flag fires is a row of that flag. -/
theorem triggerFlags_of_bits (xmit : Bool) (f : Flag) : ∀ r ∈ rowTable,
    (snapshotOf xmit (Flags.set f Flags.clear) &&& r.keyMask.extractLsb' 0 9 == r.keyMatch.extractLsb' 0 9) = true →
      triggerFlags r = flagMask (snapshotOf xmit (Flags.set f Flags.clear)) := by
  cases f <;> cases xmit <;> decide

theorem group_eq_of_triggerFlags_eq : ∀ r ∈ rowTable, ∀ q ∈ rowTable,
    r.role = q.role → triggerFlags r = triggerFlags q → r.group = q.group := by decide

/-- The rows of an engine that one flag fires are of one group, in whatever states they fire. -/
theorem group_eq_of_rowFires {s t t' : State} {f : Flag} (hflags : s.hw.flags = Flags.set f Flags.clear) {r q : Row}
    (hr : r ∈ rowTable) (hq : q ∈ rowTable) (hrole : r.role = q.role) (hfires : rowFires r (snapshot s) t = true)
    (hfires' : rowFires q (snapshot s) t' = true) : r.group = q.group := by
  have htrigger {r : Row} {t : State} (hr : r ∈ rowTable) (h : rowFires r (snapshot s) t = true) :
      triggerFlags r = flagMask (snapshot s) := by
    rw [snapshot, hflags] at h ⊢
    exact triggerFlags_of_bits _ _ r hr (bits_of_rowFires h)
  exact group_eq_of_triggerFlags_eq r hr q hq hrole ((htrigger hr hfires).trans (htrigger hq hfires').symm)

/-! ### An engine of which one row fires (R312) -/

section oneRow
variable {snap : Snapshot} {gs : List (List (Row × (State → Flow Unit)))}

theorem bind_eq_self {x : Flow Unit} {f : Unit → State → Flow Unit} (h : ∀ t, f () t = .go () t) : x.bind f = x := by
  cases x with
  | go _ t => exact h t
  | done t => rfl
  | halt t => rfl

/-- Groups of which no row fires do nothing. -/
theorem runGroups_silent {s : State} (h : ∀ q ∈ gs.flatten, rowFires q.1 snap s = false) :
    runGroups snap gs s = .go () s := by
  induction gs with
  | nil => rfl
  | cons g gs ih =>
    rw [List.flatten_cons] at h
    rcases runGroup_cases snap g s with ⟨q, hq, hfires, -⟩ | ⟨-, heq⟩
    · exact absurd hfires (Bool.eq_false_iff.1 (h q (List.mem_append_left _ hq)))
    · rw [runGroups, heq, bind_go]
      exact ih fun q hq => h q (List.mem_append_right _ hq)

/-- If `p` is the row that fires, and no row of another group ever fires for the snapshot, the engine does what `p`
does. -/
theorem runGroups_eq_row {s : State} {p : Row × (State → Flow Unit)} (hp : p ∈ gs.flatten)
    (hfires : rowFires p.1 snap s = true) (honly : ∀ q ∈ gs.flatten, rowFires q.1 snap s = true → q = p)
    (hgroup : ∀ q ∈ gs.flatten, ∀ t, rowFires q.1 snap t = true → p.1.group = q.1.group)
    (hpairwise : gs.Pairwise fun g g' => ∀ q ∈ g, ∀ q' ∈ g', q.1.group ≠ q'.1.group) :
    runGroups snap gs s = p.2 s := by
  induction gs with
  | nil => cases hp
  | cons g gs ih =>
    rw [List.flatten_cons] at hp honly hgroup
    obtain ⟨hapart, hrest⟩ := List.pairwise_cons.1 hpairwise
    rcases runGroup_cases snap g s with ⟨q, hq, hqfires, heq⟩ | ⟨hnone, heq⟩
    · obtain rfl := honly q (List.mem_append_left _ hq) hqfires
      rw [runGroups, heq]
      refine bind_eq_self fun t => runGroups_silent fun q' hq' => Bool.eq_false_iff.2 fun hfires' => ?_
      obtain ⟨g', hg', hmem⟩ := List.mem_flatten.1 hq'
      exact hapart g' hg' q hq q' hmem (hgroup q' (List.mem_append_right _ hq') t hfires')
    · have hp' : p ∈ gs.flatten :=
        (List.mem_append.1 hp).resolve_left fun h => Bool.eq_false_iff.1 (hnone p h) hfires
      rw [runGroups, heq, bind_go]
      exact ih hp' (fun q hq => honly q (List.mem_append_right _ hq)) (fun q hq => hgroup q (List.mem_append_right _ hq))
        hrest

end oneRow

/-- An interrupt of one flag makes the engine do what the row that fires does. -/
theorem runGroups_of_oneFlag {s t : State} {f : Flag} (hflags : s.hw.flags = Flags.set f Flags.clear) {role : Role}
    {p : Row × (State → Flow Unit)} (hp : p ∈ (engineGroups role).flatten)
    (hfires : rowFires p.1 (snapshot s) t = true) : runGroups (snapshot s) (engineGroups role) t = p.2 t := by
  obtain ⟨hr, hrole⟩ := engineGroups_row role p hp
  have hgroup : ∀ q ∈ (engineGroups role).flatten, ∀ t', rowFires q.1 (snapshot s) t' = true →
      p.1.group = q.1.group := fun q hq t' hfires' => by
    obtain ⟨hq', hrole'⟩ := engineGroups_row role q hq
    exact group_eq_of_rowFires hflags hr hq' (hrole.trans hrole'.symm) hfires hfires'
  refine runGroups_eq_row hp hfires (fun q hq hfires' => ?_) hgroup (engineGroups_pairwise role)
  obtain ⟨hq', hrole'⟩ := engineGroups_row role q hq
  have hrow : q.1 = p.1 := groupRowsAreExclusive (snapshot s) t q.1 hq' p.1 hr (hrole'.trans hrole.symm)
    (hgroup q hq t hfires').symm hfires' hfires
  exact engineGroups_body_unique hq hp hrow

/-! ### The acknowledge after it (R313) -/

theorem Flow.Ends.mono {α : Type} {F G : Fault → Prop} {s : State} {x : Flow α} (h : x.Ends F s)
    (hFG : ∀ r, F r → G r) : x.Ends G s := by
  cases x with
  | go a t => exact h
  | done t => exact h
  | halt t =>
    obtain ⟨r, hr, hfaults⟩ := h
    exact ⟨r, hFG r hr, hfaults⟩

theorem engineRow_ends {role : Role} {p : Row × (State → Flow Unit)} (hp : p ∈ (engineGroups role).flatten)
    (s : State) : (p.2 s).Ends slaveFault s := by
  cases role
  case master => exact (masterRow_ends p hp s).mono fun _ h => h.elim
  case slave => exact slaveRow_ends p hp s

/-- A part of an invocation that stopped at no fault is followed by the acknowledge, which leaves no flag set. -/
theorem ackSnapshot_of_no_fault {F : Fault → Prop} {s : State} {x : Flow Unit} (h : x.Ends F s)
    (hfaults : x.state.faults = s.faults) :
    ackSnapshot (snapshot s) x =
      { x.state with
        hw := { x.state.hw with flags := Flags.clear },
        cmdLog := x.state.cmdLog ++ [plainCmd (0x26#8 ++ 0#8 ++ (0#8 ++ flagMask (snapshot s)))] } := by
  have hclears {t : State} (hflags : t.hw.flags = s.hw.flags ∨ t.hw.flags = Flags.clear) :
      t.hw.flags.ack (flagMask (snapshot s)) = Flags.clear := by
    rcases hflags with h | h <;> rw [h]
    exacts [ack_snapshotOf _ _, ack_clear _]
  cases x with
  | go _ t => rw [ackSnapshot, hwAckStatus_eq, hclears h.2]; rfl
  | done t => rw [ackSnapshot, hwAckStatus_eq, hclears h.2]; rfl
  | halt t =>
    obtain ⟨r, -, hfault⟩ := h
    exact absurd (hfault.symm.trans hfaults) (by simp)

/-- Settles O41: the flag belongs to one event group, of which the firing row alone fires, so the engine does what the
row's instruction does; it stopped at no fault, so the acknowledge follows. -/
theorem interruptRunsTheFiringRow : Obligations.InterruptRunsTheFiringRow := by
  intro s u f i r hready hflags hrow hrouted hfires hexec hfaults
  obtain ⟨body, hi, hp⟩ := exec_eq_engineRow hrow
  have hfires' : rowFires r (snapshot s) (hwReadStatus s) = true := hfires
  have hrouted' : routedTo r.role (hwReadStatus s) = true := hrouted
  have hbody : exec i (hwReadStatus s) = .next (body (hwReadStatus s)).state := by
    rw [hi]; exact execRow_of_fires body (engineGroups_row _ _ hp).1 hrouted' hfires'
  obtain rfl : (body (hwReadStatus s)).state = u := by injection hbody.symm.trans hexec
  have hends : (body (hwReadStatus s)).Ends slaveFault s := ends_of_eq (engineRow_ends hp _) rfl rfl
  rw [exec_irq_ready hready, dispatchIrq_of_routed hrouted, runGroups_of_oneFlag hflags hp hfires',
    ackSnapshot_of_no_fault hends hfaults]

end Sys2Proof.Machine

/-! PROOFS. The statements of the exceptions (60_exceptions.md): the fault that ends a run, which of an engine's events
one interrupt reports first, and the controller's actions. -/

namespace Sys2Proof.Machine

/-! ### After a fault (60_exceptions.md R323) -/

/-- Settles O11: the fetch stops at the first fault recorded. -/
theorem faultedMachineHasNoStep : Obligations.FaultedMachineHasNoStep := by
  intro s r more hfaults
  rw [step, fetch_stop hfaults]

/-! ### The rows of an engine in the order of its groups (R328; 45_dispatcher.md R312) -/

section engine
variable {snap : Snapshot} {r : Row} {body : State → Flow Unit} {s t : State}

/-- Groups of which no row fires leave the engine to the groups after them. -/
theorem runGroups_drop (n : Nat) (gs : List (List (Row × (State → Flow Unit))))
    (hsilent : ∀ q ∈ (gs.take n).flatten, rowFires q.1 snap s = false) :
    runGroups snap gs s = runGroups snap (gs.drop n) s := by
  induction n generalizing gs with
  | zero => rfl
  | succ n ih =>
    cases gs with
    | nil => rfl
    | cons g gs =>
      rw [List.take_succ_cons, List.flatten_cons] at hsilent
      rcases runGroup_cases snap g s with ⟨q, hq, hfires, -⟩ | ⟨-, heq⟩
      · exact absurd hfires (Bool.eq_false_iff.1 (hsilent q (List.mem_append_left _ hq)))
      · rw [runGroups, heq, bind_go, List.drop_succ_cons]
        exact ih gs fun q hq => hsilent q (List.mem_append_right _ hq)

variable (g : List (Row × (State → Flow Unit))) (gs : List (List (Row × (State → Flow Unit))))

/-- A row that does not fire leaves its group to the rows after it. -/
theorem runGroups_passes (hsilent : rowFires r snap s = false) :
    runGroups snap (((r, body) :: g) :: gs) s = runGroups snap (g :: gs) s := by
  have hfind : ((r, body) :: g).find? (fun h => rowFires h.1 snap s) = g.find? (fun h => rowFires h.1 snap s) :=
    List.find?_cons_of_neg (Bool.eq_false_iff.1 hsilent)
  rw [runGroups, runGroup, hfind]
  rfl

/-- A row that fires runs, and the later groups follow unless it ended the engine or stopped at a fault. -/
theorem runGroups_fires (hfires : rowFires r snap s = true) :
    runGroups snap (((r, body) :: g) :: gs) s = (body s).bind fun _ t => runGroups snap gs t := by
  have hfind : ((r, body) :: g).find? (fun h => rowFires h.1 snap s) = some (r, body) :=
    List.find?_cons_of_pos hfires
  rw [runGroups, runGroup_some hfind]

theorem runGroups_goes (hfires : rowFires r snap s = true) (hrow : body s = .go () t) :
    runGroups snap (((r, body) :: g) :: gs) s = runGroups snap gs t := by
  rw [runGroups_fires g gs hfires, hrow, bind_go]

theorem runGroups_ends_at (hfires : rowFires r snap s = true) (hrow : body s = .done t) :
    runGroups snap (((r, body) :: g) :: gs) s = .done t := by
  rw [runGroups_fires g gs hfires, hrow, bind_done]

end engine

/-! ### The acknowledge of the snapshot (45_dispatcher.md R313) -/

/-- The acknowledge of an interrupt whose snapshot is `snap`, as it is logged. -/
def ackCmd (snap : Snapshot) : CmdEntry := plainCmd (0x26#8 ++ 0#8 ++ (0#8 ++ flagMask snap))

section acknowledge
variable {s t : State}

/-- With no flag set it clears nothing. -/
theorem hwAckStatus_of_clear (snap : Snapshot) (h : t.hw.flags = Flags.clear) :
    hwAckStatus (flagMask snap) t = { t with cmdLog := t.cmdLog ++ [ackCmd snap] } := by
  rw [hwAckStatus_eq, h, ack_clear, ← h]
  rfl

/-- With the snapshot's flags still set it clears them all. -/
theorem hwAckStatus_snapshot (h : t.hw.flags = s.hw.flags) :
    hwAckStatus (flagMask (snapshot s)) t =
      { t with hw := { t.hw with flags := Flags.clear }, cmdLog := t.cmdLog ++ [ackCmd (snapshot s)] } := by
  rw [hwAckStatus_eq, h, snapshot, ack_snapshotOf]
  rfl

/-- An engine that a row ended with no flag set: the acknowledge is a log entry. -/
theorem exec_irq_done {role : Role} (hready : irqReady s) (hrouted : routedTo role s = true)
    (hengine : runGroups (snapshot s) (engineGroups role) (hwReadStatus s) = .done t)
    (hflags : t.hw.flags = Flags.clear) :
    exec .irq s = .next { t with cmdLog := t.cmdLog ++ [ackCmd (snapshot s)] } := by
  rw [exec_irq_ready hready, dispatchIrq_of_routed hrouted, hengine, ← hwAckStatus_of_clear _ hflags]
  rfl

/-- An engine that came to its end with the snapshot's flags set: the acknowledge clears them. -/
theorem exec_irq_go {role : Role} (hready : irqReady s) (hrouted : routedTo role s = true)
    (hengine : runGroups (snapshot s) (engineGroups role) (hwReadStatus s) = .go () t)
    (hflags : t.hw.flags = s.hw.flags) :
    exec .irq s = .next { t with
      hw := { t.hw with flags := Flags.clear }, cmdLog := t.cmdLog ++ [ackCmd (snapshot s)] } := by
  rw [exec_irq_ready hready, dispatchIrq_of_routed hrouted, hengine, ← hwAckStatus_snapshot hflags]
  rfl

end acknowledge

theorem hwReadStatus_eq (s : State) :
    hwReadStatus s = afterCommands s s.hw [readCmd 0x25000000#32 (.snapshot (snapshot s))] := rfl

/-! ### HWTO counts where the timeout is enabled (R225, R270) -/

theorem timeout_counts {s : State} (hhwto : s.hw.flags.hwto = true) (henabled : s.cfg.hwTimeout ≠ none) :
    ((snapshot s)[7] && s.cfg.hwTimeout.isSome) = true := by
  rw [snapshot, snapshotOf_hwto, hhwto, Option.isSome_iff_ne_none.2 henabled]
  rfl

theorem timeout_ignored {s : State} (h : s.hw.flags.hwto = false ∨ s.cfg.hwTimeout = none) :
    ((snapshot s)[7] && s.cfg.hwTimeout.isSome) = false := by
  rw [snapshot, snapshotOf_hwto, Bool.and_eq_false_iff, Option.isSome_eq_false_iff, Option.isNone_iff_eq_none]
  exact h

/-! ### The master's error events (R225 to R227) -/

theorem mHwto_eq (s : State) :
    mHwto s = .done (endMaster .timeout (afterCommands s (resetHw s.hw) [plainCmd 0x18000000#32])) := rfl

theorem mNack_eq (s : State) :
    mNack s = .done (endMaster .noAck
      (afterCommands s { s.hw with stop := true, flags := Flags.clear } (abortLog s.hw.busBusy))) := by
  rw [mNack, abort_eq_afterCommands]

theorem mBer_eq (s : State) :
    mBer s = .done (endMaster .busError
      (afterCommands s (resetHw s.hw) (abortLog s.hw.busBusy ++ [plainCmd 0x18000000#32]))) := by
  rw [mBer, hwReset_abort]

section masterErrors
variable {s : State}

theorem runGroups_master_hwto (hhwto : s.hw.flags.hwto = true) (henabled : s.cfg.hwTimeout ≠ none) :
    runGroups (snapshot s) masterGroups (hwReadStatus s) = mHwto (hwReadStatus s) :=
  runGroups_ends_at _ _ ((rowFires_mHwto _ (hwReadStatus s)).trans (timeout_counts hhwto henabled)) rfl

section noTimeout
variable (hhwto : s.hw.flags.hwto = false ∨ s.cfg.hwTimeout = none)
include hhwto

theorem rowFires_mHwto_ignored : rowFires rowMHwto (snapshot s) (hwReadStatus s) = false :=
  (rowFires_mHwto _ (hwReadStatus s)).trans (timeout_ignored hhwto)

theorem runGroups_master_nack (hnack : s.hw.flags.nack = true) :
    runGroups (snapshot s) masterGroups (hwReadStatus s) = mNack (hwReadStatus s) := by
  have hfires : rowFires rowMNack (snapshot s) (hwReadStatus s) = true := by simp [snapshot, hnack]
  rw [runGroups_drop 1 masterGroups (List.forall_mem_singleton.2 (rowFires_mHwto_ignored hhwto))]
  exact runGroups_ends_at _ _ hfires rfl

theorem runGroups_master_ber (hnack : s.hw.flags.nack = false) (hber : s.hw.flags.ber = true) :
    runGroups (snapshot s) masterGroups (hwReadStatus s) = mBer (hwReadStatus s) := by
  have hnack' : rowFires rowMNack (snapshot s) (hwReadStatus s) = false := by simp [snapshot, hnack]
  have hfires : rowFires rowMBer (snapshot s) (hwReadStatus s) = true := by simp [snapshot, hber]
  rw [runGroups_drop 2 masterGroups
    (List.forall_mem_cons.2 ⟨rowFires_mHwto_ignored hhwto, List.forall_mem_singleton.2 hnack'⟩)]
  exact runGroups_ends_at _ _ hfires rfl

end noTimeout

/-- An engine that ends with `e` and no flag set leaves the master Idle with `e` signalled, its commands between the
read of the status and the acknowledge. -/
theorem exec_irq_masterEnds {e : ErrorKind} {hw : Hw} {log : List CmdEntry} (hready : irqReady s)
    (hrun : s.masterState ≠ .idle) (hflags : hw.flags = Flags.clear)
    (hengine : runGroups (snapshot s) masterGroups (hwReadStatus s) =
      .done (endMaster e (afterCommands (hwReadStatus s) hw log))) :
    ∃ t, exec .irq s = .next t ∧ t.masterState = .idle ∧ t.errorCode = e ∧ t.completion = true ∧
      t.cmdLog = s.cmdLog ++ [readCmd 0x25000000#32 (.snapshot (snapshot s))] ++ log ++ [ackCmd (snapshot s)] :=
  ⟨_, exec_irq_done (role := .master) hready ((routedTo_master s).2 hrun) hengine hflags, rfl, rfl, rfl, rfl⟩

end masterErrors

/-- Settles O44: the first of the three groups whose row fires ends the engine. -/
theorem masterReportsTheFirstError : Obligations.MasterReportsTheFirstError := by
  intro s hready hrun
  refine ⟨fun hhwto henabled => ?_, fun hhwto hnack => ?_, fun hhwto hnack hber => ?_⟩
  · have hengine := (runGroups_master_hwto hhwto henabled).trans (mHwto_eq _)
    simpa [ackCmd] using exec_irq_masterEnds hready hrun rfl hengine
  · have hengine := (runGroups_master_nack hhwto hnack).trans (mNack_eq _)
    exact exec_irq_masterEnds hready hrun rfl hengine
  · have hengine := (runGroups_master_ber hhwto hnack hber).trans (mBer_eq _)
    have hends := exec_irq_masterEnds hready hrun rfl hengine
    rw [← List.append_assoc, List.append_assoc _ [plainCmd 0x18000000#32]] at hends
    exact hends

/-! ### The slave's error events (R270, R271) -/

theorem sHwto_eq (s : State) :
    sHwto s = .done { afterCommands s (resetHw s.hw) [plainCmd 0x18000000#32] with
      slaveState := .start, slaveErrors := s.slaveErrors ++ [.slaveTimeout] } := rfl

theorem sBer_eq (s : State) :
    sBer s = .done { afterCommands s (resetHw s.hw) [plainCmd 0x18000000#32] with
      slaveState := .start,
      slaveErrors := if s.slaveState = .quick then s.slaveErrors else s.slaveErrors ++ [.slaveBusError] } := by
  rw [sBer]
  split <;> rfl

theorem routedTo_slave_of_active {s : State} (h : slaveActive s) : routedTo .slave s = true := by
  obtain ⟨hmaster, hslave, hstate⟩ := h
  exact (routedTo_slave s).2 ⟨hmaster, Option.isSome_iff_ne_none.2 hslave, hstate⟩

section slaveErrors
variable {s : State}

theorem runGroups_slave_hwto (hhwto : s.hw.flags.hwto = true) (henabled : s.cfg.hwTimeout ≠ none) :
    runGroups (snapshot s) slaveGroups (hwReadStatus s) = sHwto (hwReadStatus s) :=
  runGroups_ends_at _ _ ((rowFires_sHwto _ (hwReadStatus s)).trans (timeout_counts hhwto henabled)) rfl

section noTimeout
variable (hhwto : s.hw.flags.hwto = false ∨ s.cfg.hwTimeout = none)
include hhwto

theorem rowFires_sHwto_ignored : rowFires rowSHwto (snapshot s) (hwReadStatus s) = false :=
  (rowFires_sHwto _ (hwReadStatus s)).trans (timeout_ignored hhwto)

theorem runGroups_slave_ber (hber : s.hw.flags.ber = true) :
    runGroups (snapshot s) slaveGroups (hwReadStatus s) = sBer (hwReadStatus s) := by
  have hfires : rowFires rowSBer (snapshot s) (hwReadStatus s) = true := by simp [snapshot, hber]
  rw [runGroups_drop 1 slaveGroups (List.forall_mem_singleton.2 (rowFires_sHwto_ignored hhwto)), sBer_eq]
  exact runGroups_ends_at _ _ hfires (sBer_eq _)

/-- Without an error event the engine goes on with its groups from S3. -/
theorem runGroups_slave_noError (hber : s.hw.flags.ber = false) :
    runGroups (snapshot s) slaveGroups (hwReadStatus s) =
      runGroups (snapshot s) (slaveGroups.drop 2) (hwReadStatus s) := by
  have hber' : rowFires rowSBer (snapshot s) (hwReadStatus s) = false := by simp [snapshot, hber]
  exact runGroups_drop 2 slaveGroups
    (List.forall_mem_cons.2 ⟨rowFires_sHwto_ignored hhwto, List.forall_mem_singleton.2 hber'⟩)

end noTimeout

end slaveErrors

/-! ### The slave's rows that go on, with their callbacks answered (R272, R274, R277, R279) -/

section goes
variable {s : State} {st : Nat} {b : Byte} {q : List CallbackAnswer}

/-- The count read decides whether a receive is refused its next byte (R272). -/
theorem sDmaRx_eq (s : State) :
    sDmaRx s =
      .go () (afterCommands s { s.hw with ackMode := if s.hw.dmaCount = 256 then .nack else s.hw.ackMode }
        (readCmd 0x24000000#32 (.count s.hw.dmaCount) ::
          if s.hw.dmaCount = 256 then [plainCmd 0x21010000#32] else [])) := by
  unfold sDmaRx slaveWindow
  split
  · rw [hwReadDmaCount_eq, hwAckMode, logCmd_setHw, afterCommands_afterCommands]; rfl
  · rfl

theorem sAmRx_value (hq : s.oracle.answerQ = .value st b :: q) :
    sAmRx s = .go () (afterCalls (receiving s) [{ call := .writeRequested, answer := .done }]
      { s.oracle with answerQ := q }) := by
  have hlength : dmaLength (BitVec.ofNat 16 slaveWindow) = 256 := dmaLength_ofNat (Nat.le_refl 256)
  have hreceiving :
      { hwDmaRx (BitVec.ofNat 16 slaveWindow) (hwAckMode false s) with slaveState := .write } = receiving s := by
    simp only [hwDmaRx, hwAckMode, hlength, logCmd_setHw, afterCommands_afterCommands]
    rfl
  have hcall := callSlave_queued_value .writeRequested (s := receiving s) hq
  rw [sAmRx, hreceiving, hcall, bind_go]
  rfl

section received
variable {bytes : List Byte} {acks : List (Nat × Byte)} (hreceived : receivedBytes s bytes)
  (hacks : acks.length = bytes.length) (hq : s.oracle.answerQ = valueAnswers acks ++ .value st b :: q)
include hreceived hacks hq

theorem sDrOverflow_value :
    sDrOverflow s =
      .go () { afterCalls (overflowRead s bytes acks (.value st b :: q)) [receivedEntry (dataByte s) st]
          { s.oracle with answerQ := q } with
        slaveState := .start } := by
  have hcall := callSlave_queued_value (.writeReceived (dataByte s))
    (s := overflowRead s bytes acks (.value st b :: q)) rfl
  have hbyte : dataByte (flushed s bytes acks (.value st b :: q)) = dataByte s := rfl
  rw [sDrOverflow, flush_delivers hreceived.2 hacks hreceived.1 hq, bind_go, hwReadData_flushed, hbyte, hcall, bind_go]
  rfl

theorem sStop_value (hwrite : s.slaveState = .write) :
    sStop s =
      .go () { afterCalls (flushed s bytes acks (.value st b :: q)) [{ call := .stop, answer := .done }]
          { s.oracle with answerQ := q } with
        slaveState := .start } := by
  have hcall := callSlave_queued_value .stop (s := flushed s bytes acks (.value st b :: q)) rfl
  have hmid : midStream (flushed s bytes acks (.value st b :: q)).slaveState = true :=
    (midStream_iff _).2 (.inl hwrite)
  rw [sStop, flushIfWrite_write hwrite, flush_delivers hreceived.2 hacks hreceived.1 hq, bind_go, stopIfActive,
    if_pos hmid, hcall, bind_go, bind_go]
  rfl

end received

end goes

/-! ### Two events in one invocation (R328; 70_reset_and_hazards.md R371 (d)) -/

section twoEvents
variable {s u t : State}

/-- DMAC and SSTOP: the DMA's count is read in the receive, which the stop then ends. -/
theorem runGroups_slave_dmac_sstop (hdmac : s.hw.flags.dmac = true)
    (ham : s.hw.flags.am = false) (hdr : s.hw.flags.dr = false) (hsstop : s.hw.flags.sstop = true)
    (hwrite : (hwReadStatus s).slaveState = .write) (hdma : sDmaRx (hwReadStatus s) = .go () u)
    (hstop : sStop u = .go () t) :
    runGroups (snapshot s) (slaveGroups.drop 2) (hwReadStatus s) = .go () t := by
  have hdmac' : rowFires rowSDmaRx (snapshot s) (hwReadStatus s) = true := by
    rw [rowFires_sDmaRx, hwrite]; simp [snapshot, hdmac]
  have hsilent : ∀ p ∈ ((slaveGroups.drop 3).take 2).flatten, rowFires p.1 (snapshot s) u = false := by
    simp [slaveGroups, snapshot, ham, hdr]
  have hsstop' : rowFires rowSStop (snapshot s) u = true := by simp [snapshot, hsstop]
  calc runGroups (snapshot s) (slaveGroups.drop 2) (hwReadStatus s)
    _ = runGroups (snapshot s) (slaveGroups.drop 3) u := runGroups_goes _ _ hdmac' hdma
    _ = runGroups (snapshot s) (slaveGroups.drop 5) u := runGroups_drop 2 _ hsilent
    _ = .go () t := runGroups_goes _ _ hsstop' hstop

/-- AM and DR: the address match arms the receive, which the data byte then overflows. -/
theorem runGroups_slave_am_dr (hdmac : s.hw.flags.dmac = false) (ham : s.hw.flags.am = true)
    (hxmit : s.hw.xmit = false) (hdr : s.hw.flags.dr = true) (hsstop : s.hw.flags.sstop = false)
    (harm : sAmRx (hwReadStatus s) = .go () u) (hwrite : u.slaveState = .write) (hoverflow : sDrOverflow u = .go () t) :
    runGroups (snapshot s) (slaveGroups.drop 2) (hwReadStatus s) = .go () t := by
  have hdmac' : rowFires rowSDmaRx (snapshot s) (hwReadStatus s) = false := by simp [snapshot, hdmac]
  have htx : rowFires rowSAmTx (snapshot s) (hwReadStatus s) = false := by simp [snapshot, hxmit]
  have hrx : rowFires rowSAmRx (snapshot s) (hwReadStatus s) = true := by simp [snapshot, ham, hxmit]
  have hdr' : rowFires rowSDrOverflow (snapshot s) u = true := by simp [snapshot, hwrite, hdr]
  have hsstop' : rowFires rowSStop (snapshot s) t = false := by simp [snapshot, hsstop]
  calc runGroups (snapshot s) (slaveGroups.drop 2) (hwReadStatus s)
    _ = runGroups (snapshot s) (slaveGroups.drop 3) (hwReadStatus s) :=
      runGroups_drop 1 _ (List.forall_mem_singleton.2 hdmac')
    _ = runGroups (snapshot s) ([(rowSAmRx, sAmRx)] :: slaveGroups.drop 4) (hwReadStatus s) := runGroups_passes _ _ htx
    _ = runGroups (snapshot s) (slaveGroups.drop 4) u := runGroups_goes _ _ hrx harm
    _ = runGroups (snapshot s) (slaveGroups.drop 5) t := runGroups_goes _ _ hdr' hoverflow
    _ = .go () t := runGroups_drop 1 _ (List.forall_mem_singleton.2 hsstop')

end twoEvents

/-- Settles O45: each clause follows the engine through its groups to the row that ends it, or to its end. -/
theorem slaveTakesItsEventsInOrder : Obligations.SlaveTakesItsEventsInOrder := by
  intro s hready hactive
  have hrouted := routedTo_slave_of_active hactive
  refine ⟨fun hhwto henabled => ?_, fun hhwto hber => ?_,
    fun hhwto hber hdmac ham hdr hsstop hwrite bytes acks st b q hreceived hacks hq => ?_,
    fun hhwto hber hdmac ham hxmit hdr hsstop st st' b b' q hq => ⟨dataByte s, fun d => dataByte_supplied, ?_⟩⟩
  · rw [exec_irq_done hready hrouted ((runGroups_slave_hwto hhwto henabled).trans (sHwto_eq _)) rfl]
    simp only [afterCommands, hwReadStatus_eq, List.append_assoc]
    rfl
  · rw [exec_irq_done hready hrouted ((runGroups_slave_ber hhwto hber).trans (sBer_eq _)) rfl]
    simp only [afterCommands, hwReadStatus_eq, List.append_assoc]
    rfl
  · have hengine := (runGroups_slave_noError hhwto hber).trans
      (runGroups_slave_dmac_sstop hdmac ham hdr hsstop hwrite (sDmaRx_eq _) (sStop_value hreceived hacks hq hwrite))
    rw [exec_irq_go hready hrouted hengine rfl]
    simp only [afterCommands, afterCalls, hwReadStatus_eq, flushed, hwReadDmaCount_eq, List.append_assoc]
    rfl
  · have hengine := (runGroups_slave_noError hhwto hber).trans
      (runGroups_slave_am_dr hdmac ham hxmit hdr hsstop (sAmRx_value hq) rfl
        (sDrOverflow_value (bytes := []) (acks := []) ⟨rfl, nofun⟩ rfl rfl))
    rw [exec_irq_go hready hrouted hengine rfl]
    simp only [afterCommands, afterCalls, hwReadStatus_eq, receiving, overflowRead, List.append_assoc]
    rfl

/-! ### The controller's actions (R331) -/

section controller
variable {s : State}

/-- After INIT an action whose condition holds has its effect. -/
theorem envStep_enabled (e : EnvAction) (hinit : s.initialized = true) (henabled : envEnabled s.hw e = true) :
    envStep e s = envEffect e s :=
  if_pos (Bool.and_eq_true_iff.2 ⟨hinit, henabled⟩)

/-- A flag other than AM and DMAC may be raised where its own enable, if it has one, is on (R331 (a)). -/
theorem mayRaise_of_enabled {h : Hw} {f : Flag} (ham : f ≠ .am) (hdmac : f ≠ .dmac)
    (hstall : f = .stall → h.stallEn = true) (hhwto : f = .hwto → h.toEn = true) : mayRaise h f = true := by
  cases f
  case am => exact absurd rfl ham
  case dmac => exact absurd rfl hdmac
  case stall => exact hstall rfl
  case hwto => exact hhwto rfl
  case dr | ber | nack | sstop => rfl

theorem Flags.set_eq {f : Flag} (ham : f ≠ .am) (hdmac : f ≠ .dmac) (x : Flags) :
    x.set f =
      { x with
        dr := x.dr || decide (f = .dr), ber := x.ber || decide (f = .ber), nack := x.nack || decide (f = .nack),
        stall := x.stall || decide (f = .stall), sstop := x.sstop || decide (f = .sstop),
        hwto := x.hwto || decide (f = .hwto) } := by
  cases f
  case am => exact absurd rfl ham
  case dmac => exact absurd rfl hdmac
  all_goals simp [Flags.set]

/-- The DMA moves a byte in its direction while it is armed and its window open (10_state.md R42). -/
theorem dmaStep_enabled {h : Hw} {dir : DmaDir} (hdir : h.dmaDir = dir) (hactive : h.dmaActive = true)
    (hopen : h.dmaCount < h.dmaLen) : (decide (h.dmaDir = dir) && dmaArmedOpen h) = true := by
  rw [dmaArmedOpen, hactive, decide_eq_true hdir, decide_eq_true hopen]
  rfl

theorem dmaTransmitByte_written {b : Byte} (h : bufRead s.txBuffer s.hw.dmaCount = some b) :
    dmaTransmitByte s = setHw countByte (logBus (.txByte b) s) := by
  rw [dmaTransmitByte, h]

theorem dmaTransmitByte_unwritten (h : bufRead s.txBuffer s.hw.dmaCount = none) :
    dmaTransmitByte s = raiseFault .unwrittenBufferRead s := by
  rw [dmaTransmitByte, h]

end controller

/-- Settles O56: each condition enables its action, and of the DMA's transmit steps only that of a written cell is
logged and counted. -/
theorem controllerActions : Obligations.ControllerActions := by
  intro s hinit
  refine ⟨fun f ham hdmac hstall hhwto => ?_, envStep_enabled .finishStart hinit, envStep_enabled .finishStop hinit,
    fun b hdir hactive hopen hcell => ?_, fun hdir hactive hopen hcell => ?_,
    fun b hdir hactive hopen hlength => ⟨bufWrite s.rxBuffer s.hw.dmaCount b, ?_, fun i => ?_⟩,
    fun d => envStep_enabled (.addressMatch d) hinit, envStep_enabled .dmaComplete hinit,
    fun b => envStep_enabled (.receiveData b) hinit rfl, fun v => envStep_enabled (.setBusy v) hinit rfl⟩
  · rw [envStep_enabled (.raise f) hinit (mayRaise_of_enabled ham hdmac hstall hhwto), ← Flags.set_eq ham hdmac]
    rfl
  · rw [envStep_enabled .dmaTransmit hinit (dmaStep_enabled hdir hactive hopen)]
    exact dmaTransmitByte_written hcell
  · rw [envStep_enabled .dmaTransmit hinit (dmaStep_enabled hdir hactive hopen)]
    exact dmaTransmitByte_unwritten hcell
  · exact envStep_enabled (.dmaReceive b) hinit (dmaStep_enabled hdir hactive hopen)
  · exact (bufRead_bufWrite _ (Nat.lt_of_lt_of_le hopen hlength) b i).trans (if_congr eq_comm rfl rfl)

end Sys2Proof.Machine

/-! PROOFS. The statements of reset (70_reset_and_hazards.md R360): the power-on state and its invariant. -/

namespace Sys2Proof.Machine

/-! ### Nothing is written, no caller is inside, and INIT has not been called -/

/-- A cell that a buffer does not list is unwritten (10_state.md R25). -/
theorem bufRead_nil (i : Nat) : bufRead [] i = none := rfl

/-- Before INIT the interrupt agent has no step (45_dispatcher.md R310). -/
theorem irqEnabled_of_not_initialized {s : State} (h : s.initialized = false) : irqEnabled s = false := by
  rw [irqEnabled, h, Bool.false_and]

/-- A caller that has no record has called nothing. -/
theorem getCaller_of_callers_nil {s : State} (h : s.callers = []) (a : Nat) : getCaller s a = Caller.idle := by
  rw [getCaller, h]
  rfl

/-- A caller that has called nothing meets its clauses of the invariant in every state. -/
theorem callerInv_idle (s : State) (a : Nat) : CallerInv s a Caller.idle where
  lock hpc := absurd hpc (by decide)
  second _ hf := nomatch hf
  boot _ := ⟨Nat.zero_le 1, fun _ => rfl⟩
  subSteps _ _ hf := hf.elim nofun nofun

/-- At power-on the memories are empty, the counts zero, both engines Idle and nothing is logged (the model's
reset values: notes/assumptions/1.md). -/
theorem reset_dataInv : State.reset.DataInv :=
  have hcounts : State.reset.txCount ≤ 256 ∧ State.reset.rxCount ≤ 256 := ⟨Nat.zero_le 256, Nat.zero_le 256⟩
  have hdma : State.reset.hw.dmaOk := ⟨Nat.le_refl 0, Nat.zero_le 256⟩
  have hslave : State.reset.slaveConfig = none ↔ State.reset.slaveState = .idle := ⟨fun _ => rfl, fun _ => rfl⟩
  have hfresh : State.reset.fresh := ⟨rfl, rfl, rfl, rfl, rfl, rfl, rfl⟩
  ⟨reset_memoryWf, hcounts, hdma, hslave, ⟨nofun, nofun⟩, fun _ => hfresh⟩

/-! ### The two statements -/

/-- Settles O12: both buffers are empty, and the interrupt and the controller wait for INIT. -/
theorem resetIsPowerOn : Obligations.ResetIsPowerOn :=
  have hinit : State.reset.initialized = false := rfl
  ⟨hinit, bufRead_nil, bufRead_nil, irqEnabled_of_not_initialized hinit, fun _ => envStep_disabled (.inl hinit)⟩

/-- Settles O13, by the clauses about the data and those about each caller, none of which has called anything. -/
theorem resetHasTheInvariant : Obligations.ResetHasTheInvariant :=
  State.InvExcept.inv
    { data := reset_dataInv
      list := ⟨List.Pairwise.nil, fun _ hc => absurd hc List.not_mem_nil⟩
      each := fun a _ => by
        rw [getCaller_of_callers_nil rfl a]
        exact callerInv_idle State.reset a
      master := fun hm => absurd rfl hm }

end Sys2Proof.Machine
